-- ==== Sys2Proof/Word.lean ====
section
/-!
DEFINITION. The words of the block: one name per width the spec gives (R9). Registers that are numbers in the laws are
read with `toNat` or `toInt`, computed over unbounded integers and narrowed once (R165).
-/

namespace Sys2Proof

/-- One payload byte (R61). -/
abbrev Byte := BitVec 8

/-- The 15-bit CRC register and every checksum (R21, R110). -/
abbrev Crc := BitVec 15

/-- An 11-bit frame identifier (R28). -/
abbrev Identifier := BitVec 11

/-- The 4-bit length field; 0..8 are lengths, 9..15 are what BUILD rejects (R83, R231). -/
abbrev Length := BitVec 4

/-- Eight payload bytes, byte 0 in bits 63:56 (R61). -/
abbrev Payload := BitVec 64

/-- The frame image `id ‖ dlc ‖ data` (R90). -/
abbrev FrameImage := BitVec 79

/-- The command word `cw[81:0]` (R80). -/
abbrev CommandWord := BitVec 82

end Sys2Proof
end

