-- ==== Sys2Proof/Config.lean ====
section
/-!
DEFINITION. What an elaboration of the block fixes (R7), the spec's reference configuration (R8), and the free values:
opaque constants for what the spec leaves without a value.
-/

namespace Sys2Proof

/-- The five signal kinds a frame can carry (R191, R97). -/
inductive Kind where
  | rpm
  | speed
  | thrbrk
  | coolant
  | steer
  deriving DecidableEq, Repr, Inhabited

/-- The configuration record `CFG` (R7): the source's eight parameters and those the spec adds (D17, D22, D23).
Its constraints are `Cfg.valid` (WellFormed.lean). -/
structure Cfg where
  /-- `idleDwellTicks` -/
  idleDwellTicks : Nat
  /-- `accelTargetSpeed` -/
  accelTargetSpeed : Nat
  /-- `accelThrottleStep` -/
  accelThrottleStep : Nat
  /-- `cruiseDwellTicks` -/
  cruiseDwellTicks : Nat
  /-- `cruiseThrottle` -/
  cruiseThrottle : Nat
  /-- `brakeRpmStep` -/
  brakeRpmStep : Nat
  /-- `brakeSpeedStep` -/
  brakeSpeedStep : Nat
  /-- `coolantCeiling` -/
  coolantCeiling : Int
  /-- `IDLE_RPM` -/
  idleRpm : Nat
  /-- `RPM_BASE` -/
  rpmBase : Nat
  /-- `RPM_GAIN` -/
  rpmGain : Nat
  /-- `RPM_MAX` -/
  rpmMax : Nat
  /-- `ACCEL_THROTTLE_CAP` -/
  accelThrottleCap : Nat
  /-- `ACCEL_SPEED_STEP` -/
  accelSpeedStep : Nat
  /-- `CRUISE_RPM` -/
  cruiseRpm : Nat
  /-- `COOLANT_INIT` -/
  coolantInit : Int
  /-- `COOLANT_STEP` -/
  coolantStep : Nat
  /-- `SPEED_MAX` -/
  speedMax : Nat
  /-- `COAST_RPM_STEP` -/
  coastRpmStep : Nat
  /-- `COAST_SPEED_STEP` -/
  coastSpeedStep : Nat
  /-- `STEER_INIT` -/
  steerInit : Int
  /-- `KINDS` -/
  kinds : List Kind
  /-- `ID_RPM` -/
  idRpm : Nat
  /-- `ID_SPEED` -/
  idSpeed : Nat
  /-- `ID_THRBRK` -/
  idThrbrk : Nat
  /-- `ID_COOLANT` -/
  idCoolant : Nat
  /-- `ID_STEER` -/
  idSteer : Nat
  deriving DecidableEq, Repr

namespace Config

/-- `CFG_REF` (R8). No rule of the spec depends on it. -/
def reference : Cfg where
  idleDwellTicks := 5
  accelTargetSpeed := 100
  accelThrottleStep := 10
  cruiseDwellTicks := 10
  cruiseThrottle := 30
  brakeRpmStep := 300
  brakeSpeedStep := 10
  coolantCeiling := 90
  idleRpm := 850
  rpmBase := 850
  rpmGain := 50
  rpmMax := 6500
  accelThrottleCap := 80
  accelSpeedStep := 5
  cruiseRpm := 2350
  coolantInit := 20
  coolantStep := 1
  speedMax := 200
  coastRpmStep := 100
  coastSpeedStep := 2
  steerInit := 0
  kinds := [.rpm, .speed, .thrbrk, .coolant, .steer]
  idRpm := 0x0C0
  idSpeed := 0x0D0
  idThrbrk := 0x0E0
  idCoolant := 0x0F0
  idSteer := 0x100

/-- FREE VALUE (A2): `rst` at edge number `n` when the state's script does not say what the host drives (R11, R274). -/
opaque hostRst : Nat → Bool

/-- FREE VALUE (A2): `cw` at edge number `n` when the state's script does not say what the host drives (R11, R274). -/
opaque hostCw : Nat → CommandWord

/-- FREE VALUE (A3): what `KINDS[idx]` gives when `idx` is not below the length of `KINDS` (V7). -/
opaque kindBeyondList : List Kind → BitVec 3 → Kind

/-- FREE VALUE (A4): the stream bit of a shift edge whose index into `hold` is outside 0..78 (V7). -/
opaque streamBitOutside : FrameImage → BitVec 7 → Bool

/-- FREE VALUE (A7): `compute_crc15` at a length above 8, where R112 does not define it (V8). -/
opaque crcBeyondLength : Identifier → Length → Payload → Crc

end Config

end Sys2Proof
end

