-- ==== Sys2Proof/Syntax.lean ====
section
/-!
DEFINITION. Command set CS-1: one constructor per row of the operation map (R85), holding exactly the operand fields the
row reads (R81 to R84). Ignored bits have no effect of any kind (R87 (e)), so no constructor holds them.
-/

namespace Sys2Proof

/-- One decoded command (R85). -/
inductive Instr where
  /-- NOP, format N -/
  | nop
  /-- CRC_CLR, format N -/
  | crcClr
  /-- CRC_BIT, format S: `din` = `cw[0]` -/
  | crcBit (din : Bool)
  /-- BUILD, format B: `id` = `cw[78:68]`, `dlc` = `cw[67:64]`, `data` = `cw[63:0]` -/
  | build (id : Identifier) (dlc : Length) (data : Payload)
  /-- TICK.AUTO, format T with `manual` = 0 -/
  | tickAuto
  /-- TICK.MACC, format T with `manual`, `accel`, `brk` = 1, 1, 0: `thr_in` = `cw[6:0]` -/
  | tickMacc (thrIn : BitVec 7)
  /-- TICK.MBRK, format T with `manual`, `brk` = 1, 1 -/
  | tickMbrk
  /-- TICK.MCST, format T with `manual`, `accel`, `brk` = 1, 0, 0 -/
  | tickMcst
  /-- RSVD5, format N -/
  | rsvd5
  /-- RSVD6, format N -/
  | rsvd6
  /-- RSVD7, format N -/
  | rsvd7
  deriving DecidableEq, Repr

end Sys2Proof
end

