-- ==== Sys2Proof/WellFormed.lean ====
section
/-!
DEFINITION. What must hold before a step has a meaning: the constraints on a configuration (R7, R264), and the
well-formedness of a command, which every command has (R87 (b)).
-/

namespace Sys2Proof

/-- The constraint table of R7, row by row in its order; the two-sided rows bound from both sides.
`IDLE_RPM` is the general row `0 ≤ v ≤ RPM_MAX`; the value 850 is asked only of a configuration that must meet the
source's end-to-end scenario. -/
def Cfg.constraints (c : Cfg) : List Bool :=
  [ decide (c.idleDwellTicks ≤ 65534),
    decide (c.accelTargetSpeed ≤ c.speedMax),
    decide (c.accelThrottleStep ≤ 100),
    decide (c.cruiseDwellTicks ≤ 65534),
    decide (c.cruiseThrottle ≤ 100),
    decide (c.brakeRpmStep ≤ 65535),
    decide (1 ≤ c.brakeSpeedStep), decide (c.brakeSpeedStep ≤ 255),
    decide (c.coolantInit ≤ c.coolantCeiling), decide (c.coolantCeiling ≤ 127),
    decide (c.idleRpm ≤ c.rpmMax),
    decide (c.rpmBase ≤ 65535),
    decide (c.rpmGain ≤ 65535),
    decide (c.rpmMax ≤ 65535),
    decide (c.accelThrottleCap ≤ 100),
    decide (1 ≤ c.accelSpeedStep), decide (c.accelSpeedStep ≤ 255),
    decide (c.idleRpm ≤ c.cruiseRpm), decide (c.cruiseRpm ≤ c.rpmMax),
    decide (-128 ≤ c.coolantInit),
    decide (1 ≤ c.coolantStep), decide (c.coolantStep ≤ 255),
    decide (c.speedMax ≤ 255),
    decide (c.coastRpmStep ≤ 65535),
    decide (c.coastSpeedStep ≤ 255),
    decide (-128 ≤ c.steerInit), decide (c.steerInit ≤ 127),
    decide (1 ≤ c.kinds.length), decide (c.kinds.length ≤ 8),
    decide (c.idRpm = 0x0C0),
    decide (c.idSpeed ≤ 0x7FF), decide (c.idThrbrk ≤ 0x7FF),
    decide (c.idCoolant ≤ 0x7FF), decide (c.idSteer ≤ 0x7FF) ]

/-- The configuration satisfies R7; one that does not is refused (R7, R264, V5). -/
def Cfg.valid (c : Cfg) : Bool := c.constraints.all fun b => b

/-- A command is well-formed when its operand fields fit their widths, which the field types say already: every
operand value of every row is legal in a command word. The one value that is rejected, a BUILD length above 8, is
rejected by executing it (R87 (b), (c)). -/
def Instr.wf : Instr → Bool
  | .nop => true
  | .crcClr => true
  | .crcBit _ => true
  | .build _ _ _ => true
  | .tickAuto => true
  | .tickMacc _ => true
  | .tickMbrk => true
  | .tickMcst => true
  | .rsvd5 => true
  | .rsvd6 => true
  | .rsvd7 => true

/-- The host's duty about a command's operands: a BUILD carries a length 0..8 (R274, row "build"). A command that breaks
it still decodes and executes; it raises InvalidLength. -/
def Instr.keepsContract : Instr → Bool
  | .nop => true
  | .crcClr => true
  | .crcBit _ => true
  | .build _ dlc _ => decide (dlc.toNat ≤ 8)
  | .tickAuto => true
  | .tickMacc _ => true
  | .tickMbrk => true
  | .tickMcst => true
  | .rsvd5 => true
  | .rsvd6 => true
  | .rsvd7 => true

end Sys2Proof
end

