-- ==== Sys2Proof/Decode.lean ====
section
/-!
DEFINITION. The command word's fields (R80 to R84), the decoder (R88), the operation map as match/mask rows (R85), and
after them the encoder (R98: ignored bits 0).
-/

namespace Sys2Proof

/-- `op` = `cw[81:79]` (R80). -/
def cwOp (cw : CommandWord) : BitVec 3 := cw.extractLsb' 79 3

/-- `din` = `cw[0]`, format S (R82). -/
def cwDin (cw : CommandWord) : Bool := cw.getLsbD 0

/-- `id` = `cw[78:68]`, format B (R83). -/
def cwId (cw : CommandWord) : Identifier := cw.extractLsb' 68 11

/-- `dlc` = `cw[67:64]`, format B (R83). -/
def cwDlc (cw : CommandWord) : Length := cw.extractLsb' 64 4

/-- `data` = `cw[63:0]`, format B (R83). -/
def cwData (cw : CommandWord) : Payload := cw.extractLsb' 0 64

/-- `manual` = `cw[9]`, format T (R84). -/
def cwManual (cw : CommandWord) : Bool := cw.getLsbD 9

/-- `accel` = `cw[8]`, format T (R84). -/
def cwAccel (cw : CommandWord) : Bool := cw.getLsbD 8

/-- `brk` = `cw[7]`, format T (R84). -/
def cwBrk (cw : CommandWord) : Bool := cw.getLsbD 7

/-- `thr_in` = `cw[6:0]`, format T (R84). -/
def cwThrIn (cw : CommandWord) : BitVec 7 := cw.extractLsb' 0 7

/-- Format T: which of the four TICK forms the word is; brake wins over accelerate (R86, R88). -/
def decodeTick (cw : CommandWord) : Instr :=
  if cwManual cw = false then .tickAuto
  else if cwBrk cw then .tickMbrk
  else if cwAccel cw then .tickMacc (cwThrIn cw)
  else .tickMcst

/-- The decoding algorithm (R88): total, every one of the 2^82 words decodes (R87 (b)). The last line is `op` = 7, the
one 3-bit code the lines above leave. -/
def decode (cw : CommandWord) : Instr :=
  match (cwOp cw).toNat with
  | 0 => .nop
  | 1 => .crcClr
  | 2 => .crcBit (cwDin cw)
  | 3 => .build (cwId cw) (cwDlc cw) (cwData cw)
  | 4 => decodeTick cw
  | 5 => .rsvd5
  | 6 => .rsvd6
  | _ => .rsvd7

/-- Why a number is no command word. -/
inductive DecodeError where
  /-- The number needs more than the 82 bits of a command word (R80: one length, no longer form). -/
  | widerThanCommandWord
  deriving DecidableEq, Repr

/-- A command word given as a number, bit 0 the least significant (R80). -/
def decodeWord (w : Nat) : Except DecodeError Instr :=
  if w < 2 ^ 82 then .ok (decode (BitVec.ofNat 82 w)) else .error .widerThanCommandWord

/-- The instruction the decoder reads from the low `nbits` bits of `w`, every bit above them 0. The block has one
command word, delivered whole on the port `cw`, so there are no words to lay out in memory (R80, R43). -/
def decodeTableWord (nbits w : Nat) : Option Instr :=
  match decodeWord (w % 2 ^ nbits) with
  | .ok i => some i
  | .error _ => none

/-- One row of the operation map: a word selects it when `w & mask = pattern` (R85). -/
structure OpRow where
  mnemonic : String
  pattern : CommandWord
  mask : CommandWord
  deriving DecidableEq, Repr

/-- The operation map as match/mask pairs, in the order of R85. -/
def opTable : List OpRow :=
  [ ⟨"NOP",       0x000000000000000000000, 0x380000000000000000000⟩,
    ⟨"CRC_CLR",   0x080000000000000000000, 0x380000000000000000000⟩,
    ⟨"CRC_BIT",   0x100000000000000000000, 0x380000000000000000000⟩,
    ⟨"BUILD",     0x180000000000000000000, 0x380000000000000000000⟩,
    ⟨"TICK.AUTO", 0x200000000000000000000, 0x380000000000000000200⟩,
    ⟨"TICK.MACC", 0x200000000000000000300, 0x380000000000000000380⟩,
    ⟨"TICK.MBRK", 0x200000000000000000280, 0x380000000000000000280⟩,
    ⟨"TICK.MCST", 0x200000000000000000200, 0x380000000000000000380⟩,
    ⟨"RSVD5",     0x280000000000000000000, 0x380000000000000000000⟩,
    ⟨"RSVD6",     0x300000000000000000000, 0x380000000000000000000⟩,
    ⟨"RSVD7",     0x380000000000000000000, 0x380000000000000000000⟩ ]

/-- The row's selection test (R85). -/
def selectsRow (r : OpRow) (cw : CommandWord) : Bool := cw &&& r.mask == r.pattern

/-- The mnemonic of a command's row (R85). -/
def mnemonic : Instr → String
  | .nop => "NOP"
  | .crcClr => "CRC_CLR"
  | .crcBit _ => "CRC_BIT"
  | .build _ _ _ => "BUILD"
  | .tickAuto => "TICK.AUTO"
  | .tickMacc _ => "TICK.MACC"
  | .tickMbrk => "TICK.MBRK"
  | .tickMcst => "TICK.MCST"
  | .rsvd5 => "RSVD5"
  | .rsvd6 => "RSVD6"
  | .rsvd7 => "RSVD7"

/-! The encoder: the canonical word of a command, every ignored bit 0 (R87 (e), R98), except that a BUILD's payload stands
in it as listed (A20). -/

/-- Format N: `op` and 79 ignored bits (R81). -/
def encodeN (op : BitVec 3) : CommandWord := op ++ (0 : BitVec 79)

/-- Format S: `op`, 78 ignored bits, `din` (R82). -/
def encodeS (op : BitVec 3) (din : Bool) : CommandWord := op ++ (0 : BitVec 78) ++ BitVec.ofBool din

/-- Format B: `op`, `id`, `dlc`, `data` (R83). DESIGN CHOICE (A20): payload bytes of index `dlc` and above, which R83 and V3
call ignored and which R98 both lets a BUILD line list and writes as 0, are kept as listed. -/
def encodeB (op : BitVec 3) (id : Identifier) (dlc : Length) (data : Payload) : CommandWord := op ++ id ++ dlc ++ data

/-- Format T: `op`, 69 ignored bits, `manual`, `accel`, `brk`, `thr_in` (R84). -/
def encodeT (op : BitVec 3) (manual accel brk : Bool) (thrIn : BitVec 7) : CommandWord :=
  op ++ (0 : BitVec 69) ++ BitVec.ofBool manual ++ BitVec.ofBool accel ++ BitVec.ofBool brk ++ thrIn

/-- The canonical command word (R85, R98: TICK.MBRK with `accel` = 0, unread operands 0). -/
def encode : Instr → CommandWord
  | .nop => encodeN 0
  | .crcClr => encodeN 1
  | .crcBit din => encodeS 2 din
  | .build id dlc data => encodeB 3 id dlc data
  | .tickAuto => encodeT 4 false false false 0
  | .tickMacc thrIn => encodeT 4 true true false thrIn
  | .tickMbrk => encodeT 4 true false true 0
  | .tickMcst => encodeT 4 true false false 0
  | .rsvd5 => encodeN 5
  | .rsvd6 => encodeN 6
  | .rsvd7 => encodeN 7

/-- The bits of a command word that the decoder reads for the command's row and operands; every other bit is ignored (R81 to
R85, V3). For BUILD it is all of them: the payload is decoded whole, and its bytes of index `dlc` and above are dropped by the
meaning (R130, R139, A20). -/
def readMask : Instr → CommandWord
  | .nop => encodeN 7
  | .crcClr => encodeN 7
  | .crcBit _ => encodeS 7 true
  | .build _ _ _ => BitVec.allOnes 82
  | .tickAuto => encodeT 7 true false false 0
  | .tickMacc _ => encodeT 7 true true true 0x7F
  | .tickMbrk => encodeT 7 true false true 0
  | .tickMcst => encodeT 7 true true true 0
  | .rsvd5 => encodeN 7
  | .rsvd6 => encodeN 7
  | .rsvd7 => encodeN 7

end Sys2Proof
end

