-- ==== Sys2Proof/Machine/State.lean ====
section
/-!
DEFINITION. The state of the block (R20), the reasons a step can stop, and the state after reset (R47).
-/

namespace Sys2Proof.Machine

/-- SimulatorPhase (R30): four phases, all four codes of the 2-bit register legal (R96). -/
inductive Phase where
  | idle
  | accelerate
  | cruise
  | brake
  deriving DecidableEq, Repr

/-- The eight registers `advance` maps (R150): the source's VehicleState and its SimulatorPhase with the tick counter. -/
structure Vehicle where
  /-- `rpm` (R22) -/
  rpm : BitVec 16
  /-- `speed` (R23) -/
  speed : BitVec 8
  /-- `throttle` (R24) -/
  throttle : BitVec 7
  /-- `brake` (R25) -/
  brake : Bool
  /-- `coolant`, two's complement (R26) -/
  coolant : BitVec 8
  /-- `steer`, two's complement (R27) -/
  steer : BitVec 8
  /-- `phase` (R30) -/
  phase : Phase
  /-- `ticks` (R31) -/
  ticks : BitVec 16
  deriving DecidableEq, Repr

/-- The frame group `f_id`, `f_dlc`, `f_data`, `f_crc`, always written together (R28). -/
structure Frame where
  /-- `f_id` -/
  id : Identifier
  /-- `f_dlc` -/
  dlc : Length
  /-- `f_data` -/
  data : Payload
  /-- `f_crc` -/
  crc : Crc
  deriving DecidableEq, Repr

/-- The values of the input ports at one edge (R43). -/
structure Pins where
  /-- `rst` -/
  rst : Bool
  /-- `cw` -/
  cw : CommandWord
  deriving DecidableEq, Repr

/-- The state: the twenty registers of R20 (eight of them in `veh`, four in `frame`), the configuration, which no step
writes (R7, A1), and what the host drives at the coming edges (A2). -/
structure State where
  /-- `CFG` (R7); the model's field, constant -/
  cfg : Cfg
  /-- the port values of the coming edges, nearest first; the model's field -/
  script : List Pins
  /-- how many edges have passed; the model's field, read only to pick a free input -/
  edge : Nat
  /-- `crc` (R21) -/
  crc : Crc
  /-- `rpm`, `speed`, `throttle`, `brake`, `coolant`, `steer`, `phase`, `ticks` (R22 to R27, R30, R31) -/
  veh : Vehicle
  /-- `f_id`, `f_dlc`, `f_data`, `f_crc` (R28) -/
  frame : Frame
  /-- `f_valid` (R29) -/
  fValid : Bool
  /-- `idx` (R32) -/
  idx : BitVec 3
  /-- `busy` (R33) -/
  busy : Bool
  /-- `cnt` (R34) -/
  cnt : BitVec 7
  /-- `hold` (R35) -/
  hold : FrameImage
  /-- `err_len` (R36) -/
  errLen : Bool
  /-- `err_sticky` (R37) -/
  errSticky : Bool
  deriving DecidableEq, Repr

/-- Why the machine stops. No command of the block faults (R217: "it never faults"). -/
inductive Fault where
  /-- Raised by the shift edge of a state with `cnt` > 79, for which `Step` is not defined (R217, V7) and which no run
  from reset reaches (R34). Safe: the model stops where the spec gives no rule (A5). -/
  | cntOutsideRules
  deriving DecidableEq, Repr

/-- Why the model declines to run. -/
inductive Refusal where
  /-- Raised by `exec` for an instruction without a meaning, by its mnemonic. Safe. No arm of `exec` raises it. -/
  | notModelled (mnemonic : String)
  /-- Raised by `step` when the configuration breaks a constraint of R7: "a model must refuse it, not run it". Safe (A6). -/
  | invalidConfiguration
  deriving DecidableEq, Repr

/-- The vehicle registers' reset values (R22 to R27, R30, R31, R47). -/
def Vehicle.ofReset (c : Cfg) : Vehicle where
  rpm := BitVec.ofNat 16 c.idleRpm
  speed := 0
  throttle := 0
  brake := true
  coolant := BitVec.ofInt 8 c.coolantInit
  steer := BitVec.ofInt 8 c.steerInit
  phase := .idle
  ticks := 0

/-- The all-zero frame the frame ports show after reset (R28, R138). -/
def Frame.ofReset : Frame where
  id := 0
  dlc := 0
  data := 0
  crc := 0

/-- Every register at its reset value (R47); the configuration and the host's side are the arguments. -/
def State.ofReset (c : Cfg) (script : List Pins) (edge : Nat) : State where
  cfg := c
  script := script
  edge := edge
  crc := 0
  veh := Vehicle.ofReset c
  frame := Frame.ofReset
  fValid := false
  idx := 0
  busy := false
  cnt := 0
  hold := 0
  errLen := false
  errSticky := false

/-- The machine right after reset (R47), elaborated with `CFG_REF` (DESIGN CHOICE, A1), nothing said of what the host
drives next (A2). -/
def State.reset : State := State.ofReset Config.reference [] 0

end Sys2Proof.Machine
end

