-- ==== Sys2Proof/Machine/Operands.lean ====
section
/-!
DEFINITION. The forms in which operations read their data: the number primitives of R10, payload bytes (R61, R135,
R136), the payload mask (R139), the frame image (R90) and the checksum stream (R89).
-/

namespace Sys2Proof.Machine

/-- `clamp(v, lo, hi)` (R10). -/
def clamp (v lo hi : Nat) : Nat :=
  if v < lo then lo else if v > hi then hi else v

/-- `dec_floor(v, s, f)`: a decrease by `s` that stops at the floor `f` (R10). -/
def decFloor (v s f : Nat) : Nat :=
  if f + s ≤ v then v - s else f

/-- The sampled throttle input as TICK.MACC uses it: `min(thr_in, 100)` (R162, R243 (b)). -/
def sampledThrottle (thrIn : BitVec 7) : Nat := min thrIn.toNat 100

/-- `Byte(d, i)` = `d[63−8i : 56−8i]` (R61, R135). -/
def payloadByte (d : Payload) (i : Fin 8) : Byte := d.extractLsb' (56 - 8 * i.val) 8

/-- `Be16(d, i)` = `Byte(d, i) × 256 + Byte(d, i+1)` (R136). -/
def be16 (d : Payload) (i : Fin 7) : Nat :=
  (payloadByte d ⟨i.val, by omega⟩).toNat * 256 + (payloadByte d ⟨i.val + 1, by omega⟩).toNat

/-- The payload written `[b0 b1 …]`: byte 0 first, absent bytes 0x00, bytes past the eighth dropped (R98). -/
def payloadOfBytes (bs : List Byte) : Payload :=
  (List.range 8).foldl (fun d i => d ||| (((bs[i]?).getD 0).zeroExtend 64 <<< (56 - 8 * i))) 0

/-- `MaskPayload(dlc, data)` = `data & ~((1 << (64 − 8·dlc)) − 1)`, for `dlc` in 0..8 (R139). -/
def maskPayload (dlc : Length) (data : Payload) : Payload :=
  data &&& ~~~(BitVec.ofNat 64 (2 ^ (64 - 8 * dlc.toNat) - 1))

/-- The frame image `id ‖ dlc ‖ data` (R90). -/
def frameImage (id : Identifier) (dlc : Length) (data : Payload) : FrameImage := id ++ dlc ++ data

/-- The identifier of a frame image, bits 78:68 (R90). -/
def imageId (h : FrameImage) : Identifier := h.extractLsb' 68 11

/-- The length of a frame image, bits 67:64 (R90). -/
def imageDlc (h : FrameImage) : Length := h.extractLsb' 64 4

/-- The payload of a frame image, bits 63:0 (R90). -/
def imageData (h : FrameImage) : Payload := h.extractLsb' 0 64

/-- The number of stream bits, N = 15 + 8·dlc (R89). -/
def streamLength (dlc : Length) : Nat := 15 + 8 * dlc.toNat

/-- The first `n` bits of a frame image's stream: bit k is image bit 78 − k (R89). -/
def imageStream (h : FrameImage) (n : Nat) : List Bool :=
  (List.range n).map fun k => h.getLsbD (78 - k)

/-- `Stream(id, dlc, data)`, for `dlc` in 0..8 (R89). -/
def stream (id : Identifier) (dlc : Length) (data : Payload) : List Bool :=
  imageStream (frameImage id dlc data) (streamLength dlc)

/-- The bit a shift edge feeds to the LFSR: `hold[78 − N + cnt]` with N = 15 + 8·`hold[67:64]` (R132). In every run the
index is in 0..78; where it is not, the bit is a free value (V7, A4). -/
def shiftBit (hold : FrameImage) (cnt : BitVec 7) : Bool :=
  let n := streamLength (imageDlc hold)
  if n ≤ 78 + cnt.toNat ∧ cnt.toNat ≤ n then hold.getLsbD (78 + cnt.toNat - n)
  else Config.streamBitOutside hold cnt

end Sys2Proof.Machine
end

