-- ==== Sys2Proof/Machine/Flags.lean ====
section
/-!
DEFINITION. The status flags (R39): when a length is invalid, the two pulses every edge writes, and what the flags say.
-/

namespace Sys2Proof.Machine

/-- The condition that makes BUILD raise InvalidLength: `dlc` in 9..15 (R231). -/
def lengthInvalid (dlc : Length) : Bool := decide (8 < dlc.toNat)

/-- `f_valid <- 0`, `err_len <- 0`: what every edge that is neither a latch edge nor an InvalidLength edge does to the two
one-period flags (R29, R36, R217). It is also all the "return" InvalidLength has (R233). -/
def clearPulses (s : State) : State := { s with fValid := false, errLen := false }

/-- The exceptions of the block: exactly one (R230). -/
inductive ExceptionCause where
  /-- InvalidLength (R231) -/
  | invalidLength
  deriving DecidableEq, Repr

/-- The cause code, where a number is wanted (R231). -/
def causeCode : ExceptionCause → Nat
  | .invalidLength => 1

/-- The exception raised at the edge that led to this state, read off the flag that identifies it (R231, R36). -/
def raisedCause (s : State) : Option ExceptionCause := if s.errLen then some .invalidLength else none

end Sys2Proof.Machine
end

