-- ==== Sys2Proof/Machine/Crc.lean ====
section
/-!
DEFINITION. The CRC-15 engine: the LFSR step (R110), the checksum of a frame (R112), CRC_CLR and CRC_BIT (R113, R114).
-/

namespace Sys2Proof.Machine

/-- `crc_step(c, b)` (R110). -/
def crcStep (c : Crc) (b : Bool) : Crc :=
  let fb := Bool.xor b (c.getLsbD 14)
  let s := c <<< 1
  if fb then s ^^^ 0x4599 else s

/-- The register after a sequence of steps (R112's loop). -/
def crcSteps (c : Crc) (bits : List Bool) : Crc := bits.foldl crcStep c

/-- `compute_crc15(id, dlc, data)` for `dlc` ≤ 8 (R112); a free value where the function is not defined (V8, A7). -/
def computeCrc15 (id : Identifier) (dlc : Length) (data : Payload) : Crc :=
  if dlc.toNat ≤ 8 then crcSteps 0 (stream id dlc data) else Config.crcBeyondLength id dlc data

/-- CRC_CLR (R113). -/
def execCrcClr (s : State) : Host.Outcome State Fault Refusal :=
  .next { s with crc := 0, fValid := false, errLen := false }

/-- CRC_BIT (R114). -/
def execCrcBit (din : Bool) (s : State) : Host.Outcome State Fault Refusal :=
  .next { s with crc := crcStep s.crc din, fValid := false, errLen := false }

end Sys2Proof.Machine
end

