-- ==== Sys2Proof/Machine/Ops.lean ====
section
/-!
DEFINITION. The operations the edges share: sampling the ports, starting a run, raising InvalidLength, the shift, latch
and reset edges.
-/

namespace Sys2Proof.Machine

/-- The port values `j` edges ahead: the script's, and free values where it says nothing (R11, R43, A2). -/
def pinsAt (s : State) (j : Nat) : Pins :=
  match s.script[j]? with
  | some p => p
  | none => ⟨Config.hostRst (s.edge + j), Config.hostCw (s.edge + j)⟩

/-- The port values sampled at the next edge (R43, R271). -/
def pins (s : State) : Pins := pinsAt s 0

/-- The edge has passed: its port values are gone (R271: "operands are consumed entirely at the accept edge"). -/
def passEdge (s : State) : State := { s with script := s.script.tail, edge := s.edge + 1 }

/-- The accept edge's start of a run: the frame goes to `hold`, the stream counter and the LFSR are set, `busy` rises
(R131, R210). `data` already has zero bytes beyond `dlc`. -/
def startRun (id : Identifier) (dlc : Length) (data : Payload) (s : State) : State :=
  { s with
    hold := frameImage id dlc data
    cnt := BitVec.ofNat 7 (streamLength dlc)
    crc := 0
    busy := true
    fValid := false
    errLen := false }

/-- TAKING THE EXCEPTION: `raise InvalidLength`, all of it (R232). There is no handler and no return operation; `err_len`
falls at the next edge by `clearPulses` (R233). -/
def raiseInvalidLength (s : State) : State :=
  { s with errLen := true, errSticky := true, fValid := false }

/-- Shift edge: one stream bit into the LFSR (R132). `Step` is defined for `cnt` ≤ 79 (R217); above it the model stops
(A5). -/
def shiftEdge (s : State) : Host.Outcome State Fault Refusal :=
  if s.cnt.toNat ≤ 79 then
    .next { s with
      crc := crcStep s.crc (shiftBit s.hold s.cnt)
      cnt := s.cnt - 1
      fValid := false
      errLen := false }
  else .fault .cntOutsideRules

/-- Latch edge: the held frame and its checksum go to the frame group (R133). -/
def latchEdge (s : State) : State :=
  { s with
    frame := ⟨imageId s.hold, imageDlc s.hold, imageData s.hold, s.crc⟩
    fValid := true
    busy := false
    errLen := false }

/-- Reset edge: every register takes its reset value, whatever the state (R260). -/
def resetEdge (s : State) : State := State.ofReset s.cfg s.script s.edge

end Sys2Proof.Machine
end

