-- ==== Sys2Proof/Machine/Control.lean ====
section
/-!
DEFINITION. NOP and the reserved codes (R215, R216).
-/

namespace Sys2Proof.Machine

/-- NOP (R215). -/
def execNop (s : State) : Host.Outcome State Fault Refusal := .next (clearPulses s)

/-- RSVD5: exactly NOP (R216). -/
def execRsvd5 (s : State) : Host.Outcome State Fault Refusal := .next (clearPulses s)

/-- RSVD6: exactly NOP (R216). -/
def execRsvd6 (s : State) : Host.Outcome State Fault Refusal := .next (clearPulses s)

/-- RSVD7: exactly NOP (R216). -/
def execRsvd7 (s : State) : Host.Outcome State Fault Refusal := .next (clearPulses s)

end Sys2Proof.Machine
end

