-- ==== Sys2Proof/Machine/Frame.lean ====
section
/-!
DEFINITION. The Frame Model: the function `build` (R130) and the BUILD operation (R131).
-/

namespace Sys2Proof.Machine

/-- `build(id, dlc, data)` (R130): the length check is made here and never clamps. -/
def build (id : Identifier) (dlc : Length) (data : Payload) : Except ExceptionCause Frame :=
  if lengthInvalid dlc then .error .invalidLength
  else .ok ⟨id, dlc, maskPayload dlc data, computeCrc15 id dlc (maskPayload dlc data)⟩

/-- BUILD, accept edge (R131). -/
def execBuild (id : Identifier) (dlc : Length) (data : Payload) (s : State) : Host.Outcome State Fault Refusal :=
  if lengthInvalid dlc then .next (raiseInvalidLength s)
  else .next (startRun id dlc (maskPayload dlc data) s)

end Sys2Proof.Machine
end

