-- ==== Sys2Proof/Machine/Simulator.lean ====
section
/-!
DEFINITION. The Vehicle Simulator: the four phase laws and their assembly (R152 to R160), the coolant law (R158), the three
manual forms (R161 to R164). Every law computes over unbounded integers (R165) and is narrowed once, in `narrow`.
-/

namespace Sys2Proof.Machine

/-- What a law gives: the new signal values as integers, the brake, and whether the phase is left. -/
structure LawResult where
  rpm : Nat
  speed : Nat
  throttle : Nat
  brake : Bool
  exit : Bool
  deriving DecidableEq, Repr

/-- The only transitions: a closed loop (R157). -/
def nextPhase : Phase → Phase
  | .idle => .accelerate
  | .accelerate => .cruise
  | .cruise => .brake
  | .brake => .idle

/-- The tick counter the exit tests use, `min(ticks + 1, 65535)` (R152). -/
def countedTicks (v : Vehicle) : Nat := min (v.ticks.toNat + 1) 65535

/-- Idle law (R153). -/
def idleLaw (c : Cfg) (v : Vehicle) : LawResult where
  rpm := c.idleRpm
  speed := v.speed.toNat
  throttle := 0
  brake := true
  exit := decide (countedTicks v > c.idleDwellTicks)

/-- The new throttle of the Accelerate law (R154). -/
def rampedThrottle (c : Cfg) (v : Vehicle) : Nat := min (v.throttle.toNat + c.accelThrottleStep) c.accelThrottleCap

/-- Base plus throttle times gain, clamped (R154, R162). -/
def poweredRpm (c : Cfg) (throttle : Nat) : Nat := clamp (c.rpmBase + throttle * c.rpmGain) c.idleRpm c.rpmMax

/-- The new speed of the Accelerate law (R154). -/
def acceleratedSpeed (c : Cfg) (v : Vehicle) : Nat :=
  if v.speed.toNat < c.accelTargetSpeed then min (v.speed.toNat + c.accelSpeedStep) c.accelTargetSpeed
  else v.speed.toNat

/-- Accelerate law (R154). -/
def accelerateLaw (c : Cfg) (v : Vehicle) : LawResult where
  rpm := poweredRpm c (rampedThrottle c v)
  speed := acceleratedSpeed c v
  throttle := rampedThrottle c v
  brake := false
  exit := decide (acceleratedSpeed c v ≥ c.accelTargetSpeed)

/-- Cruise law (R155). -/
def cruiseLaw (c : Cfg) (v : Vehicle) : LawResult where
  rpm := c.cruiseRpm
  speed := v.speed.toNat
  throttle := c.cruiseThrottle
  brake := false
  exit := decide (countedTicks v > c.cruiseDwellTicks)

/-- Brake law (R156). -/
def brakeLaw (c : Cfg) (v : Vehicle) : LawResult where
  rpm := decFloor v.rpm.toNat c.brakeRpmStep c.idleRpm
  speed := decFloor v.speed.toNat c.brakeSpeedStep 0
  throttle := 0
  brake := true
  exit := decide (decFloor v.speed.toNat c.brakeSpeedStep 0 = 0)

/-- The law of the phase held before the tick (R157, R160). -/
def phaseLaw (c : Cfg) (v : Vehicle) : LawResult :=
  match v.phase with
  | .idle => idleLaw c v
  | .accelerate => accelerateLaw c v
  | .cruise => cruiseLaw c v
  | .brake => brakeLaw c v

/-- Coolant law (R158), over integers. -/
def coolantLaw (c : Cfg) (coolant : Int) : Int :=
  if coolant < c.coolantCeiling then min (coolant + c.coolantStep) c.coolantCeiling else coolant

/-- The next vehicle registers from a law's values, the next phase and counter; the coolant law applies and `steer` holds
in every form (R158, R159, R161). Narrowing to the register widths loses nothing under a valid configuration (R165). -/
def narrow (c : Cfg) (v : Vehicle) (r : LawResult) (phase : Phase) (ticks : Nat) : Vehicle where
  rpm := BitVec.ofNat 16 r.rpm
  speed := BitVec.ofNat 8 r.speed
  throttle := BitVec.ofNat 7 r.throttle
  brake := r.brake
  coolant := BitVec.ofInt 8 (coolantLaw c v.coolant.toInt)
  steer := v.steer
  phase := phase
  ticks := BitVec.ofNat 16 ticks

/-- `advance_auto` (R160, with the transition of R157). -/
def advanceAuto (c : Cfg) (v : Vehicle) : Vehicle :=
  let r := phaseLaw c v
  if r.exit then narrow c v r (nextPhase v.phase) 0 else narrow c v r v.phase (countedTicks v)

/-- The signal lines of `advance_macc` (R162). -/
def maccLaw (c : Cfg) (v : Vehicle) (thrIn : BitVec 7) : LawResult where
  rpm := poweredRpm c (sampledThrottle thrIn)
  speed := min (v.speed.toNat + c.accelSpeedStep * sampledThrottle thrIn / 100) c.speedMax
  throttle := sampledThrottle thrIn
  brake := false
  exit := false

/-- The signal lines of `advance_mbrk` (R163). -/
def mbrkLaw (c : Cfg) (v : Vehicle) : LawResult where
  rpm := decFloor v.rpm.toNat c.brakeRpmStep c.idleRpm
  speed := decFloor v.speed.toNat c.brakeSpeedStep 0
  throttle := 0
  brake := true
  exit := false

/-- The signal lines of `advance_mcst` (R164). -/
def mcstLaw (c : Cfg) (v : Vehicle) : LawResult where
  rpm := decFloor v.rpm.toNat c.coastRpmStep c.idleRpm
  speed := decFloor v.speed.toNat c.coastSpeedStep 0
  throttle := 0
  brake := false
  exit := false

/-- The manual forms' common part: the phase becomes Brake and the counter 0, whatever they were; no exit test is
evaluated (R161). -/
def manual (c : Cfg) (v : Vehicle) (r : LawResult) : Vehicle := narrow c v r .brake 0

/-- `advance_macc` (R162). -/
def advanceMacc (thrIn : BitVec 7) (c : Cfg) (v : Vehicle) : Vehicle := manual c v (maccLaw c v thrIn)

/-- `advance_mbrk` (R163). -/
def advanceMbrk (c : Cfg) (v : Vehicle) : Vehicle := manual c v (mbrkLaw c v)

/-- `advance_mcst` (R164). -/
def advanceMcst (c : Cfg) (v : Vehicle) : Vehicle := manual c v (mcstLaw c v)

end Sys2Proof.Machine
end

