-- ==== Sys2Proof/Machine/Scheduler.lean ====
section
/-!
DEFINITION. The Frame Scheduler: kind selection (R191), the signal encoders (R192, R91 to R95), rotation (R193).
-/

namespace Sys2Proof.Machine

/-- What an encoder gives: identifier, length, payload with zero bytes beyond the length (R192). -/
structure Signal where
  id : Identifier
  dlc : Length
  data : Payload
  deriving DecidableEq, Repr

/-- `KINDS[idx]` (R191); beyond the list, where no rule gives a kind, a free value (V7, A3). -/
def kindAt (c : Cfg) (idx : BitVec 3) : Kind :=
  match c.kinds[idx.toNat]? with
  | some k => k
  | none => Config.kindBeyondList c.kinds idx

/-- `Encode(kind, V')` (R192). -/
def encodeSignal (c : Cfg) (k : Kind) (v : Vehicle) : Signal :=
  match k with
  | .rpm => ⟨BitVec.ofNat 11 c.idRpm, 2, v.rpm.extractLsb' 8 8 ++ v.rpm.extractLsb' 0 8 ++ (0 : BitVec 48)⟩
  | .speed => ⟨BitVec.ofNat 11 c.idSpeed, 1, v.speed ++ (0 : BitVec 56)⟩
  | .thrbrk =>
    ⟨BitVec.ofNat 11 c.idThrbrk, 2,
      (0 : BitVec 1) ++ v.throttle ++ ((0 : BitVec 7) ++ BitVec.ofBool v.brake) ++ (0 : BitVec 48)⟩
  | .coolant => ⟨BitVec.ofNat 11 c.idCoolant, 1, v.coolant ++ (0 : BitVec 56)⟩
  | .steer => ⟨BitVec.ofNat 11 c.idSteer, 1, v.steer ++ (0 : BitVec 56)⟩

/-- `(idx + 1) mod K` (R193). -/
def rotate (c : Cfg) (idx : BitVec 3) : BitVec 3 := BitVec.ofNat 3 ((idx.toNat + 1) % c.kinds.length)

/-- `next_frame(V', idx)`: the signal to frame, and the next index (R190). -/
def nextFrame (c : Cfg) (v : Vehicle) (idx : BitVec 3) : Signal × BitVec 3 :=
  (encodeSignal c (kindAt c idx) v, rotate c idx)

end Sys2Proof.Machine
end

