-- ==== Sys2Proof/Machine/Tick.lean ====
section
/-!
DEFINITION. The four TICK forms (R210 to R214).
-/

namespace Sys2Proof.Machine

/-- TICK, accept edge, common to the four forms (R210): advance, select and encode from the NEW vehicle values, rotate,
start the run. -/
def tick (advance : Cfg → Vehicle → Vehicle) (s : State) : State :=
  let v := advance s.cfg s.veh
  let (sig, idx) := nextFrame s.cfg v s.idx
  startRun sig.id sig.dlc sig.data { s with veh := v, idx := idx }

/-- TICK.AUTO (R211). -/
def execTickAuto (s : State) : Host.Outcome State Fault Refusal := .next (tick advanceAuto s)

/-- TICK.MACC (R212). -/
def execTickMacc (thrIn : BitVec 7) (s : State) : Host.Outcome State Fault Refusal := .next (tick (advanceMacc thrIn) s)

/-- TICK.MBRK (R213). -/
def execTickMbrk (s : State) : Host.Outcome State Fault Refusal := .next (tick advanceMbrk s)

/-- TICK.MCST (R214). -/
def execTickMcst (s : State) : Host.Outcome State Fault Refusal := .next (tick advanceMcst s)

end Sys2Proof.Machine
end

