-- ==== Sys2Proof/Machine/Dispatch.lean ====
section
/-!
DEFINITION. Which meaning each command has at its accept edge (R217, the `case Decode(cw)` part).
-/

namespace Sys2Proof.Machine

def exec (i : Instr) (s : State) : Host.Outcome State Fault Refusal :=
  match i with
  | .nop => Sys2Proof.Machine.execNop s
  | .crcClr => Sys2Proof.Machine.execCrcClr s
  | .crcBit din => Sys2Proof.Machine.execCrcBit din s
  | .build id dlc data => Sys2Proof.Machine.execBuild id dlc data s
  | .tickAuto => Sys2Proof.Machine.execTickAuto s
  | .tickMacc thrIn => Sys2Proof.Machine.execTickMacc thrIn s
  | .tickMbrk => Sys2Proof.Machine.execTickMbrk s
  | .tickMcst => Sys2Proof.Machine.execTickMcst s
  | .rsvd5 => Sys2Proof.Machine.execRsvd5 s
  | .rsvd6 => Sys2Proof.Machine.execRsvd6 s
  | .rsvd7 => Sys2Proof.Machine.execRsvd7 s

end Sys2Proof.Machine
end

