-- ==== Sys2Proof/Machine/Edge.lean ====
section
/-!
DEFINITION. `Step` (R217): which of the four branches applies at an edge, with the port values it samples.
-/

namespace Sys2Proof.Machine

/-- `Step(CFG, S, rst, cw)` (R217): `rst` over `busy` over the command word (R235). While `busy` = 1 the command word is
not decoded (R265). -/
def coreEdge (p : Pins) (s : State) : Host.Outcome State Fault Refusal :=
  if p.rst then .next (resetEdge s)
  else if s.busy then
    if s.cnt = 0 then .next (latchEdge s) else shiftEdge s
  else exec (decode p.cw) s

/-- One rising edge of `clk`: sample the ports, then `Step`. A configuration that breaks R7 is refused (R7, R264, A6). -/
def clockEdge (s : State) : Host.Outcome State Fault Refusal :=
  if s.cfg.valid then coreEdge (pins s) (passEdge s) else .refused .invalidConfiguration

/-- The port value that presents the low `nbits` bits of `w` as a command word, `rst` = 0 (R43, R80). -/
def commandPins (nbits w : Nat) : Pins := ⟨false, BitVec.ofNat 82 (w % 2 ^ nbits)⟩

end Sys2Proof.Machine
end

