-- ==== Sys2Proof/Machine/Step.lean ====
section
/-!
DEFINITION. The step (one rising edge of the clock, R6), and how a command word is placed for the next one (A2).
-/

namespace Sys2Proof.Machine

/-- One step: one rising edge (R6, R217). -/
def step (s : State) : Host.Outcome State Fault Refusal := clockEdge s

/-- The state in which the host drives this command word, with `rst` = 0, at the next edge, and no run is in progress, so
that the edge accepts it (R43, R217, A2). Of the registers only `busy` is touched. -/
def State.withFetchWord (s : State) (nbits w : Nat) : State :=
  { s with script := commandPins nbits w :: s.script.tail, busy := false }

end Sys2Proof.Machine
end

