-- ==== Sys2Proof/Machine/Ports.lean ====
section
/-!
DEFINITION. The output ports (R44): each equal to the register named, at all times; reading one changes nothing (R66).
-/

namespace Sys2Proof.Machine

/-- The 2-bit code of a phase (R96). -/
def phaseCode : Phase → BitVec 2
  | .idle => 0
  | .accelerate => 1
  | .cruise => 2
  | .brake => 3

/-- The sixteen output ports (R44). -/
structure OutputPorts where
  oBusy : Bool
  oCrc : BitVec 15
  oFValid : Bool
  oFId : BitVec 11
  oFDlc : BitVec 4
  oFData : BitVec 64
  oFCrc : BitVec 15
  oErrLen : Bool
  oErrSticky : Bool
  oRpm : BitVec 16
  oSpeed : BitVec 8
  oThrottle : BitVec 7
  oBrake : Bool
  oCoolant : BitVec 8
  oSteer : BitVec 8
  oPhase : BitVec 2
  deriving DecidableEq, Repr

/-- What the output ports show in a state; `hold`, `cnt`, `idx`, `ticks` have no port (R44). -/
def outputs (s : State) : OutputPorts where
  oBusy := s.busy
  oCrc := s.crc
  oFValid := s.fValid
  oFId := s.frame.id
  oFDlc := s.frame.dlc
  oFData := s.frame.data
  oFCrc := s.frame.crc
  oErrLen := s.errLen
  oErrSticky := s.errSticky
  oRpm := s.veh.rpm
  oSpeed := s.veh.speed
  oThrottle := s.veh.throttle
  oBrake := s.veh.brake
  oCoolant := s.veh.coolant
  oSteer := s.veh.steer
  oPhase := phaseCode s.veh.phase

end Sys2Proof.Machine
end

