-- ==== Sys2Proof/Machine/Timing.lean ====
section
/-!
DEFINITION. The cycle counts of R270, and the operation-level view: each operation one atomic transition (R134, R218).
`exec` and `step` do not use this file; that it describes them is stated as an obligation.
-/

namespace Sys2Proof.Machine

/-- Edges of a TICK whose kind is `k`: 25 for a one-byte kind, 33 for a two-byte kind (R270). -/
def tickEdges : Kind → Nat
  | .rpm => 33
  | .speed => 25
  | .thrbrk => 33
  | .coolant => 25
  | .steer => 25

/-- Edges from accept to completion, inclusive (R270). -/
def completionEdges (i : Instr) (s : State) : Nat :=
  match i with
  | .nop => 1
  | .crcClr => 1
  | .crcBit _ => 1
  | .build _ dlc _ => if lengthInvalid dlc then 1 else 17 + 8 * dlc.toNat
  | .tickAuto => tickEdges (kindAt s.cfg s.idx)
  | .tickMacc _ => tickEdges (kindAt s.cfg s.idx)
  | .tickMbrk => tickEdges (kindAt s.cfg s.idx)
  | .tickMcst => tickEdges (kindAt s.cfg s.idx)
  | .rsvd5 => 1
  | .rsvd6 => 1
  | .rsvd7 => 1

/-- A frame stands on the frame ports and its run is over (R134, R218). -/
def frameDone (f : Frame) (s : State) : State :=
  { s with
    frame := f
    crc := f.crc
    hold := frameImage f.id f.dlc f.data
    cnt := 0
    busy := false
    fValid := true
    errLen := false }

/-- BUILD as one transition (R134); with an invalid length, the exception (R232). -/
def atomicBuild (id : Identifier) (dlc : Length) (data : Payload) (s : State) : State :=
  match build id dlc data with
  | .ok f => frameDone f s
  | .error .invalidLength => raiseInvalidLength s

/-- A TICK form as one transition (R218): the vehicle advances, the index rotates, and the kind's frame is done. -/
def atomicTick (advance : Cfg → Vehicle → Vehicle) (s : State) : State :=
  let v := advance s.cfg s.veh
  let (sig, idx) := nextFrame s.cfg v s.idx
  frameDone ⟨sig.id, sig.dlc, sig.data, computeCrc15 sig.id sig.dlc sig.data⟩ { s with veh := v, idx := idx }

/-- An operation as one transition, from a state with `busy` = 0 (R218). -/
def atomicOp (i : Instr) (s : State) : State :=
  match i with
  | .nop => clearPulses s
  | .crcClr => { s with crc := 0, fValid := false, errLen := false }
  | .crcBit din => { s with crc := crcStep s.crc din, fValid := false, errLen := false }
  | .build id dlc data => atomicBuild id dlc data s
  | .tickAuto => atomicTick advanceAuto s
  | .tickMacc thrIn => atomicTick (advanceMacc thrIn) s
  | .tickMbrk => atomicTick advanceMbrk s
  | .tickMcst => atomicTick advanceMcst s
  | .rsvd5 => clearPulses s
  | .rsvd6 => clearPulses s
  | .rsvd7 => clearPulses s

/-- A run of the block at operation level: each operation applied to the state the previous one left (R218). -/
def atomicRun (ops : List Instr) (s : State) : State := ops.foldl (fun s i => atomicOp i s) s

/-- `k` edges have passed. -/
def passEdges (k : Nat) (s : State) : State := { s with script := s.script.drop k, edge := s.edge + k }

end Sys2Proof.Machine
end

