-- ==== Sys2Proof/Machine/Program.lean ====
section
/-!
DEFINITION. The written form of operation sequences: one line per edge (R98) and the pseudo-operations (R99).
-/

namespace Sys2Proof.Machine

/-- One line, one clock edge (R98). -/
inductive Line where
  /-- `RST`: one edge with `rst` = 1, not a command word -/
  | rst
  /-- any other line: one edge with `rst` = 0 and the canonical encoding -/
  | op (i : Instr)
  deriving DecidableEq, Repr

/-- The port values of a line's edge; for `RST` the command word is irrelevant and written 0 (R98, R260). -/
def linePins : Line → Pins
  | .rst => ⟨true, 0⟩
  | .op i => ⟨false, encode i⟩

/-- The host's script for a sequence of lines. -/
def scriptOf (ls : List Line) : List Pins := ls.map linePins

/-- `WAIT`: NOPs until `busy` is 0, none if it already is (R99). A run with `cnt` bits to go ends after `cnt` shift edges
and the latch edge (R132, R133). -/
def waitLines (s : State) : List Line := List.replicate (if s.busy then s.cnt.toNat + 1 else 0) (.op .nop)

/-- Edges of an operation's line and the `WAIT` after it (R99). With `busy` = 0 the line is accepted and they are the
operation's own (R270). With `busy` = 1 the line is dropped (R98, R265), its edge is the run's next edge, and `WAIT` lasts to
the end of that run. -/
def waitedEdges (i : Instr) (s : State) : Nat := if s.busy then s.cnt.toNat + 1 else completionEdges i s

/-- `BUILDW …`, `TICKW`, `TICK.Mxxx W`, issued in the state `s`: the operation, then `WAIT` (R99). -/
def withWait (i : Instr) (s : State) : List Line := .op i :: List.replicate (waitedEdges i s - 1) (.op .nop)

/-- `CRC_BITS n, v` = `CRC_BIT v[n−1]`, …, `CRC_BIT v[0]` (R99). -/
def crcBits (n : Nat) (v : BitVec n) : List Instr := (List.range n).map fun k => .crcBit (v.getLsbD (n - 1 - k))

/-- `CRC_BYTE v` (R99). -/
def crcByte (v : Byte) : List Instr := crcBits 8 v

/-- `CRC15 id, dlc, [b0 …]`, for `dlc` in 0..8 (R99, R116). DESIGN CHOICE (A21): for `dlc` in 9..15, where the spec gives no
expansion (a payload has bytes 0 to 7 only), the length is sent as given and the bytes stop after byte 7. -/
def crc15 (id : Identifier) (dlc : Length) (data : Payload) : List Instr :=
  .crcClr :: crcBits 11 id ++ crcBits 4 dlc ++
    ((List.finRange 8).take dlc.toNat).flatMap fun i => crcByte (payloadByte data i)

end Sys2Proof.Machine
end

