-- ==== Sys2Proof/Safety.lean ====
section
/-!
DEFINITION. What a safe run is: the invariants the spec claims of every state reachable from reset (R28, R34, R137, R166),
and the host's contract (R274).
-/

namespace Sys2Proof.Machine

/-- The vehicle registers are inside their declared domains (R166 (a) to (g)). -/
structure VehicleInDomain (s : State) : Prop where
  rpm_ge : s.cfg.idleRpm ≤ s.veh.rpm.toNat
  rpm_le : s.veh.rpm.toNat ≤ s.cfg.rpmMax
  speed_le : s.veh.speed.toNat ≤ s.cfg.speedMax
  throttle_le : s.veh.throttle.toNat ≤ 100
  coolant_ge : s.cfg.coolantInit ≤ s.veh.coolant.toInt
  coolant_le : s.veh.coolant.toInt ≤ s.cfg.coolantCeiling
  idle_still : s.veh.phase = .idle → s.veh.speed = 0
  steer_const : s.veh.steer.toInt = s.cfg.steerInit
  idle_ticks : s.veh.phase = .idle → s.veh.ticks.toNat ≤ s.cfg.idleDwellTicks
  cruise_ticks : s.veh.phase = .cruise → s.veh.ticks.toNat ≤ s.cfg.cruiseDwellTicks

/-- A frame is one that `build` can give: the checksum is a pure derived value, the length at most 8, the bytes beyond it
zero (R28, R137). -/
structure FrameConsistent (f : Frame) : Prop where
  dlc_le : f.dlc.toNat ≤ 8
  crc_eq : f.crc = computeCrc15 f.id f.dlc f.data
  tail_zero : ∀ i : Fin 8, f.dlc.toNat ≤ i.val → payloadByte f.data i = 0

/-- The run in progress is one that an accept edge started: the LFSR holds the stream's bits consumed so far (R34, R35,
R132). -/
structure RunConsistent (s : State) : Prop where
  not_busy : s.busy = false → s.cnt = 0
  dlc_le : s.busy = true → (imageDlc s.hold).toNat ≤ 8
  cnt_le : s.busy = true → s.cnt.toNat ≤ streamLength (imageDlc s.hold)
  tail_zero : s.busy = true → ∀ i : Fin 8, (imageDlc s.hold).toNat ≤ i.val → payloadByte (imageData s.hold) i = 0
  crc_eq : s.busy = true →
    s.crc = crcSteps 0 (imageStream s.hold (streamLength (imageDlc s.hold) - s.cnt.toNat))

/-- The flags agree with each other and with the registers they speak of (R29, R36, R37, R133). -/
structure FlagsConsistent (s : State) : Prop where
  err_recorded : s.errLen = true → s.errSticky = true
  err_excludes : s.errLen = true → s.fValid = false ∧ s.busy = false
  valid_fresh : s.fValid = true → s.busy = false ∧ s.crc = s.frame.crc ∧
    s.hold = frameImage s.frame.id s.frame.dlc s.frame.data

/-- Every claim of the spec about a reachable state. -/
structure Legal (s : State) : Prop where
  configured : s.cfg.valid = true
  vehicle : VehicleInDomain s
  index : s.idx.toNat < s.cfg.kinds.length
  frame : FrameConsistent s.frame
  run : RunConsistent s
  flags : FlagsConsistent s

/-- `k` edges from a state (R272: a finite run is a finite sequence of edges). -/
def runEdges (k : Nat) (s : State) : Host.Outcome State Fault Refusal := Host.Core.run Sys2Proof.core k s

/-- The command is one of the four TICK forms (R85). -/
def isTick : Instr → Bool
  | .nop => false
  | .crcClr => false
  | .crcBit _ => false
  | .build _ _ _ => false
  | .tickAuto => true
  | .tickMacc _ => true
  | .tickMbrk => true
  | .tickMcst => true
  | .rsvd5 => false
  | .rsvd6 => false
  | .rsvd7 => false

/-- The host drives no reset at the next `n` edges. -/
def NoResetFor (n : Nat) (s : State) : Prop := ∀ j, j < n → (pinsAt s j).rst = false

/-- The next edge accepts the command `i`: a valid configuration, no reset, no run in progress, and a word that decodes to
`i` on the port (R217, R265). -/
structure Accepts (i : Instr) (s : State) : Prop where
  configured : s.cfg.valid = true
  no_reset : (pins s).rst = false
  not_busy : s.busy = false
  decoded : decode (pins s).cw = i

/-- The next edge accepts one of the four TICK forms. -/
def AcceptsTick (s : State) : Prop := ∃ i, Accepts i s ∧ isTick i = true

/-- The next edge accepts a BUILD with a valid length. -/
def AcceptsBuild (s : State) : Prop := ∃ id dlc data, Accepts (.build id dlc data) s ∧ dlc.toNat ≤ 8

/-- The next edge accepts a BUILD that raises InvalidLength (R231). -/
def AcceptsBadBuild (s : State) : Prop := ∃ id dlc data, Accepts (.build id dlc data) s ∧ 8 < dlc.toNat

/-- The next edge is a shift edge (R132). -/
def AtShiftEdge (s : State) : Prop := (pins s).rst = false ∧ s.busy = true ∧ s.cnt ≠ 0

/-- The next edge is a latch edge (R133). -/
def AtLatchEdge (s : State) : Prop := (pins s).rst = false ∧ s.busy = true ∧ s.cnt = 0

/-- The lines of a host that issues the operations one after the other, from a state with `busy` = 0, and waits for each
(R99, R265). -/
def operationLines : List Instr → State → List Line
  | [], _ => []
  | i :: is, s => withWait i s ++ operationLines is (atomicOp i s)

/-- `ceil(a / b)` for positive `b` (R167 (b)). -/
def ceilDiv (a b : Nat) : Nat := (a + b - 1) / b

/-- Ticks spent in each phase of an autonomous cycle that starts at rest (R167 (b)). -/
def idleBlock (c : Cfg) : Nat := c.idleDwellTicks + 1
def accelerateBlock (c : Cfg) : Nat := max 1 (ceilDiv c.accelTargetSpeed c.accelSpeedStep)
def cruiseBlock (c : Cfg) : Nat := c.cruiseDwellTicks + 1
def brakeBlock (c : Cfg) : Nat := max 1 (ceilDiv c.accelTargetSpeed c.brakeSpeedStep)

/-- The length of an autonomous cycle in ticks (R167 (c): 47 under `CFG_REF`). -/
def cycleTicks (c : Cfg) : Nat := idleBlock c + accelerateBlock c + cruiseBlock c + brakeBlock c

/-- The phase `m` ticks into an autonomous cycle (R167). -/
def cyclePhase (c : Cfg) (m : Nat) : Phase :=
  if m < idleBlock c then .idle
  else if m < idleBlock c + accelerateBlock c then .accelerate
  else if m < idleBlock c + accelerateBlock c + cruiseBlock c then .cruise
  else .brake

end Sys2Proof.Machine
end

