-- ==== Sys2Proof/Certificates/Slice0/Obligations.lean ====
section
/-!
DEFINITION. The statements put to the provers, each with the rule of `spec/` it formalises. They hold for every valid
configuration and every value of the free values; none speaks of a program.
-/

open Sys2Proof Sys2Proof.Machine

/-! ### Decoding -/

/-- Decode and encode agree, for every command with every operand; the same through the table-word reading (the model's way
of numbering a word, A11). It says that no operand bit is dropped. -/
def Obligations.DecodeEncodeRoundTrip : Prop :=
  ∀ i : Instr, decode (encode i) = i ∧ decodeTableWord 88 (encode i).toNat = some i

/-- A word decodes to a command exactly when its read bits are those of the command's canonical word: the other bits have
no effect (R87 (e), R88). That a BUILD's canonical word keeps the payload whole is the model's choice (A20). -/
def Obligations.DecodeReadsExactlyItsBits : Prop :=
  ∀ (cw : CommandWord) (i : Instr), decode cw = i ↔ cw &&& readMask i = encode i

/-- R85: the eleven rows partition all words, and the row a word selects is the one the decoder answers with. -/
def Obligations.OperationMapPartitions : Prop :=
  ∀ cw : CommandWord, ∀ r ∈ opTable, selectsRow r cw = true ↔ r.mnemonic = mnemonic (decode cw)

/-- R86: inside format T, brake wins over accelerate, and without `manual` the other operands are ignored. -/
def Obligations.BrakeWinsInFormatT : Prop :=
  ∀ cw : CommandWord, cw.extractLsb' 79 3 = 4 →
    (cw.getLsbD 9 = true → cw.getLsbD 8 = true → cw.getLsbD 7 = true → decode cw = .tickMbrk) ∧
    (cw.getLsbD 9 = false → decode cw = .tickAuto)

/-- Words written out bit by bit from the formats N, S, B, T decode to the commands they stand for (95_test_vectors.md
section 6). -/
def Obligations.SpecWordsDecode : Prop :=
  decode 0x07FFFFFFFFFFFFFFFFFFF = .nop ∧
  decode 0x080000000000000000000 = .crcClr ∧
  decode 0x17FFFFFFFFFFFFFFFFFFE = .crcBit false ∧
  decode 0x18C0203E8000000000000 = .build 0x0C0 2 0x03E8000000000000 ∧
  decode 0x2000000000000000000FF = .tickAuto ∧
  decode 0x200000000000000000332 = .tickMacc 50 ∧
  decode 0x200000000000000000385 = .tickMbrk ∧
  decode 0x200000000000000000263 = .tickMcst ∧
  decode 0x3FFFFFFFFFFFFFFFFFFFF = .rsvd7

/-! ### The step -/

/-- An edge that accepts a command runs it: the step is `exec` of the decoded command, the edge's port values consumed. -/
def Obligations.StepRunsDecodedCommand : Prop :=
  ∀ (i : Instr) (s : State), Accepts i s → step s = exec i (passEdge s)

/-- The model's choice of how a command reaches the port (A2): a command word placed with `withFetchWord` is decoded and run
by the very next step. -/
def Obligations.PlacedWordIsRun : Prop :=
  ∀ (s : State) (nbits w : Nat) (i : Instr), s.cfg.valid = true → decodeTableWord nbits w = some i →
    step (s.withFetchWord nbits w) = exec i (passEdge (s.withFetchWord nbits w))

/-- R217: `Step` is total on every state with `cnt` at most 79: it never faults and never refuses. -/
def Obligations.StepIsTotal : Prop :=
  ∀ s : State, s.cfg.valid = true → s.cnt.toNat ≤ 79 → ∃ t, step s = .next t

/-- R29, R36: `f_valid` is 1 exactly after a latch edge, `err_len` exactly after a BUILD that raised InvalidLength. -/
def Obligations.PulseFlagsMark : Prop :=
  ∀ s t : State, step s = .next t →
    (t.fValid = true ↔ AtLatchEdge s) ∧ (t.errLen = true ↔ AcceptsBadBuild s)

/-- R37: `err_sticky` is set by a BUILD that raises InvalidLength, cleared by reset and changed by nothing else. -/
def Obligations.StickyFlagRecords : Prop :=
  ∀ s t : State, step s = .next t →
    (t.errSticky = true ↔ (pins s).rst = false ∧ (s.errSticky = true ∨ AcceptsBadBuild s))

/-- R47, R260: after an edge with `rst` = 1 every register holds its reset value, whatever the state and the command
word; nothing of a run in progress survives (R273). -/
def Obligations.ResetEdgeValues : Prop :=
  ∀ s : State, s.cfg.valid = true → (pins s).rst = true →
    ∃ t, step s = .next t ∧ t.cfg = s.cfg ∧
      t.crc = 0 ∧ t.veh.rpm.toNat = s.cfg.idleRpm ∧ t.veh.speed = 0 ∧ t.veh.throttle = 0 ∧ t.veh.brake = true ∧
      t.veh.coolant.toInt = s.cfg.coolantInit ∧ t.veh.steer.toInt = s.cfg.steerInit ∧
      t.frame.id = 0 ∧ t.frame.dlc = 0 ∧ t.frame.data = 0 ∧ t.frame.crc = 0 ∧ t.fValid = false ∧
      t.veh.phase = .idle ∧ t.veh.ticks = 0 ∧ t.idx = 0 ∧ t.busy = false ∧ t.cnt = 0 ∧ t.hold = 0 ∧
      t.errLen = false ∧ t.errSticky = false

/-- R132: a shift edge feeds `hold[78 − N + cnt]`, N = 15 + 8·`hold[67:64]`, to the LFSR and counts down; nothing else
changes. The index is a bit of `hold` in every run (R34); states where it is not are outside this statement (V7, A4, A5). -/
def Obligations.ShiftEdgeEffect : Prop :=
  ∀ (s : State) (j : Nat), s.cfg.valid = true → (pins s).rst = false → s.busy = true → s.cnt ≠ 0 → s.cnt.toNat ≤ 79 →
    j ≤ 78 → j + (15 + 8 * (s.hold.extractLsb' 64 4).toNat) = 78 + s.cnt.toNat →
    ∃ t, step s = .next t ∧ t.cnt.toNat + 1 = s.cnt.toNat ∧
      t = { passEdge s with crc := crcStep s.crc (s.hold.getLsbD j), cnt := t.cnt, fValid := false, errLen := false }

/-- The model's choice (A5; V7, R217): a shift edge of a state with `cnt` above 79, which no rule covers, stops by name. -/
def Obligations.CountAbove79Stops : Prop :=
  ∀ s : State, s.cfg.valid = true → (pins s).rst = false → s.busy = true → 79 < s.cnt.toNat →
    step s = .fault .cntOutsideRules

/-- R133: a latch edge copies the held frame and the LFSR to the frame group, pulses `f_valid` and drops `busy`; nothing
else changes. -/
def Obligations.LatchEdgeEffect : Prop :=
  ∀ s : State, s.cfg.valid = true → (pins s).rst = false → s.busy = true → s.cnt = 0 →
    step s = .next { passEdge s with
      frame := ⟨s.hold.extractLsb' 68 11, s.hold.extractLsb' 64 4, s.hold.extractLsb' 0 64, s.crc⟩
      fValid := true
      busy := false
      errLen := false }

/-- R265: at a shift or latch edge the command word has no effect at all: two hosts that differ only there get the same
next state. -/
def Obligations.CommandsDuringRunDropped : Prop :=
  ∀ (s : State) (p q : CommandWord) (rest : List Pins), s.busy = true →
    step { s with script := ⟨false, p⟩ :: rest } = step { s with script := ⟨false, q⟩ :: rest }

/-- R7: a configuration that breaks a constraint is refused, not run; that `step` is where it is refused is the model's
choice (A6). -/
def Obligations.BadConfigurationRefused : Prop :=
  ∀ s : State, s.cfg.valid = false → step s = .refused .invalidConfiguration

/-- R7: the validity check is the constraint table. -/
def Obligations.ConfigurationTable : Prop :=
  ∀ c : Cfg, c.valid = true ↔
    c.idleDwellTicks ≤ 65534 ∧ c.accelTargetSpeed ≤ c.speedMax ∧ c.accelThrottleStep ≤ 100 ∧
    c.cruiseDwellTicks ≤ 65534 ∧ c.cruiseThrottle ≤ 100 ∧ c.brakeRpmStep ≤ 65535 ∧
    (1 ≤ c.brakeSpeedStep ∧ c.brakeSpeedStep ≤ 255) ∧
    (c.coolantInit ≤ c.coolantCeiling ∧ c.coolantCeiling ≤ 127) ∧
    c.idleRpm ≤ c.rpmMax ∧ c.rpmBase ≤ 65535 ∧ c.rpmGain ≤ 65535 ∧ c.rpmMax ≤ 65535 ∧
    c.accelThrottleCap ≤ 100 ∧ (1 ≤ c.accelSpeedStep ∧ c.accelSpeedStep ≤ 255) ∧
    (c.idleRpm ≤ c.cruiseRpm ∧ c.cruiseRpm ≤ c.rpmMax) ∧ -128 ≤ c.coolantInit ∧
    (1 ≤ c.coolantStep ∧ c.coolantStep ≤ 255) ∧ c.speedMax ≤ 255 ∧ c.coastRpmStep ≤ 65535 ∧
    c.coastSpeedStep ≤ 255 ∧ (-128 ≤ c.steerInit ∧ c.steerInit ≤ 127) ∧
    (1 ≤ c.kinds.length ∧ c.kinds.length ≤ 8) ∧ c.idRpm = 0x0C0 ∧
    c.idSpeed ≤ 0x7FF ∧ c.idThrbrk ≤ 0x7FF ∧ c.idCoolant ≤ 0x7FF ∧ c.idSteer ≤ 0x7FF

/-- R48: which edges write which register. Outside a reset edge, a register that an edge changes is one that the table
gives the edge's column; `steer` and the configuration are never written. -/
def Obligations.OnlyTheTableWrites : Prop :=
  ∀ s t : State, step s = .next t → (pins s).rst = false →
    t.cfg = s.cfg ∧ t.veh.steer = s.veh.steer ∧
    (t.veh ≠ s.veh → AcceptsTick s) ∧
    (t.idx ≠ s.idx → AcceptsTick s) ∧
    (t.frame ≠ s.frame → AtLatchEdge s) ∧
    (t.hold ≠ s.hold → AcceptsTick s ∨ AcceptsBuild s) ∧
    (t.busy ≠ s.busy → AcceptsTick s ∨ AcceptsBuild s ∨ AtLatchEdge s) ∧
    (t.cnt ≠ s.cnt → AcceptsTick s ∨ AcceptsBuild s ∨ AtShiftEdge s) ∧
    (t.crc ≠ s.crc → AcceptsTick s ∨ AcceptsBuild s ∨ AtShiftEdge s ∨ Accepts .crcClr s ∨
      ∃ din, Accepts (.crcBit din) s) ∧
    (t.errSticky ≠ s.errSticky → AcceptsBadBuild s)

/-- R44: each output port is the register named. -/
def Obligations.OutputPortsShowRegisters : Prop :=
  ∀ s : State, outputs s =
    ⟨s.busy, s.crc, s.fValid, s.frame.id, s.frame.dlc, s.frame.data, s.frame.crc, s.errLen, s.errSticky,
      s.veh.rpm, s.veh.speed, s.veh.throttle, s.veh.brake, s.veh.coolant, s.veh.steer,
      match s.veh.phase with | .idle => 0 | .accelerate => 1 | .cruise => 2 | .brake => 3⟩

/-! ### The CRC engine -/

/-- R111: the LFSR step bit by bit, and its linearity over GF(2). -/
def Obligations.CrcStepBitByBit : Prop :=
  (∀ (c : Crc) (b : Bool), ∀ i < 15,
    (crcStep c b).getLsbD i =
      if i = 0 then Bool.xor b (c.getLsbD 14)
      else if i ∈ [3, 4, 7, 8, 10, 14] then Bool.xor (c.getLsbD (i - 1)) (Bool.xor b (c.getLsbD 14))
      else c.getLsbD (i - 1)) ∧
  ∀ (c₁ c₂ : Crc) (b₁ b₂ : Bool),
    crcStep (c₁ ^^^ c₂) (Bool.xor b₁ b₂) = crcStep c₁ b₁ ^^^ crcStep c₂ b₂

/-- R62, R89: the stream has 15 + 8·dlc bits: the identifier, the length, then the payload bytes in ascending order, each
most significant bit first. -/
def Obligations.StreamOrder : Prop :=
  ∀ (id : Identifier) (dlc : Length) (data : Payload), dlc.toNat ≤ 8 →
    (stream id dlc data).length = 15 + 8 * dlc.toNat ∧
    (∀ k, k ≤ 10 → (stream id dlc data)[k]? = some (id.getLsbD (10 - k))) ∧
    (∀ k, 11 ≤ k → k ≤ 14 → (stream id dlc data)[k]? = some (dlc.getLsbD (14 - k))) ∧
    ∀ (i : Fin 8) (j : Nat), i.val < dlc.toNat → j < 8 →
      (stream id dlc data)[15 + 8 * i.val + j]? = some ((payloadByte data i).getLsbD (7 - j))

/-- R139: the mask keeps the bytes below the length and zeroes the rest. -/
def Obligations.MaskPayloadBytes : Prop :=
  ∀ (dlc : Length) (data : Payload) (i : Fin 8), dlc.toNat ≤ 8 →
    payloadByte (maskPayload dlc data) i = if i.val < dlc.toNat then payloadByte data i else 0

/-- R61: a payload is its eight bytes, byte 0 most significant; R136: `Be16` reads two of them, high byte first. -/
def Obligations.PayloadLayout : Prop :=
  ∀ d : Payload,
    payloadByte d 0 ++ payloadByte d 1 ++ payloadByte d 2 ++ payloadByte d 3 ++
      payloadByte d 4 ++ payloadByte d 5 ++ payloadByte d 6 ++ payloadByte d 7 = d ∧
    ∀ i : Fin 7, be16 d i = (d.extractLsb' (48 - 8 * i.val) 16).toNat

/-- R112: payload bytes of index `dlc` and above do not influence the checksum. -/
def Obligations.ChecksumIgnoresTail : Prop :=
  ∀ (id : Identifier) (dlc : Length) (d₁ d₂ : Payload), dlc.toNat ≤ 8 →
    (∀ i : Fin 8, i.val < dlc.toNat → payloadByte d₁ i = payloadByte d₂ i) →
    computeCrc15 id dlc d₁ = computeCrc15 id dlc d₂

/-- R115 (c): for equal lengths the checksum is linear up to the length field's own contribution. -/
def Obligations.ChecksumLinear : Prop :=
  ∀ (id₁ id₂ : Identifier) (dlc : Length) (d₁ d₂ : Payload), dlc.toNat ≤ 8 →
    computeCrc15 (id₁ ^^^ id₂) dlc (d₁ ^^^ d₂) =
      computeCrc15 id₁ dlc d₁ ^^^ computeCrc15 id₂ dlc d₂ ^^^ computeCrc15 0 dlc 0

/-- R113: CRC_CLR clears the LFSR and the two pulse flags, and nothing else. -/
def Obligations.CrcClrEffect : Prop :=
  ∀ s : State, exec .crcClr s = .next { s with crc := 0, fValid := false, errLen := false }

/-- R114 with R110 written out: CRC_BIT shifts the LFSR by one host-supplied bit, and changes nothing else but the pulse
flags. -/
def Obligations.CrcBitEffect : Prop :=
  ∀ (din : Bool) (s : State), exec (.crcBit din) s =
    .next { s with
      crc := if Bool.xor din (s.crc.getLsbD 14) = true then (s.crc <<< 1) ^^^ 0x4599 else s.crc <<< 1
      fValid := false
      errLen := false }

/-- R116: the CRC_CLR, CRC_BIT route of the CRC15 pseudo-operation ends with `compute_crc15` in `crc`, takes 16 + 8·dlc
edges, and changes no other register but the pulse flags. -/
def Obligations.BitSerialRouteComputesChecksum : Prop :=
  ∀ (id : Identifier) (dlc : Length) (data : Payload) (s : State) (rest : List Pins),
    dlc.toNat ≤ 8 → s.cfg.valid = true → s.busy = false →
    s.script = scriptOf ((crc15 id dlc data).map .op) ++ rest →
    runEdges (16 + 8 * dlc.toNat) s =
      .next { s with
        script := rest
        edge := s.edge + (16 + 8 * dlc.toNat)
        crc := computeCrc15 id dlc data
        fValid := false
        errLen := false }

/-! ### The Frame Model -/

/-- R130: `build` checks the length, masks the payload and sets the checksum, of the frame as given or as masked. -/
def Obligations.BuildMakesFrame : Prop :=
  ∀ (id : Identifier) (dlc : Length) (data : Payload),
    (8 < dlc.toNat → build id dlc data = .error .invalidLength) ∧
    (dlc.toNat ≤ 8 → build id dlc data = .ok ⟨id, dlc, maskPayload dlc data, computeCrc15 id dlc data⟩)

/-- R131: a BUILD with a length 0..8 puts the masked frame into `hold`, clears the LFSR and starts a run of 15 + 8·dlc
bits; the vehicle, the index and the frame ports are untouched. -/
def Obligations.BuildStartsRun : Prop :=
  ∀ (id : Identifier) (dlc : Length) (data : Payload) (s : State), dlc.toNat ≤ 8 →
    ∃ t, exec (.build id dlc data) s = .next t ∧ t.cnt.toNat = 15 + 8 * dlc.toNat ∧
      t = { s with
        hold := id ++ dlc ++ maskPayload dlc data
        cnt := t.cnt
        crc := 0
        busy := true
        fValid := false
        errLen := false }

/-- R232: a BUILD with a length 9..15 raises InvalidLength: `err_len` and `err_sticky` rise, `f_valid` falls, and every
other register keeps its value. -/
def Obligations.BadBuildRaisesInvalidLength : Prop :=
  ∀ (id : Identifier) (dlc : Length) (data : Payload) (s : State), 8 < dlc.toNat →
    exec (.build id dlc data) s = .next { s with errLen := true, errSticky := true, fValid := false }

/-- R134: BUILD as one transition. After its 17 + 8·dlc edges the frame of `build` stands on the frame ports and nothing
else has changed; after each earlier edge `busy` is 1 and the previous frame still stands. -/
def Obligations.BuildAsOneTransition : Prop :=
  ∀ (id : Identifier) (dlc : Length) (data : Payload) (s : State), dlc.toNat ≤ 8 →
    Accepts (.build id dlc data) s → NoResetFor (17 + 8 * dlc.toNat) s →
    (∃ f, build id dlc data = .ok f ∧
      runEdges (17 + 8 * dlc.toNat) s =
        .next { s with
          script := s.script.drop (17 + 8 * dlc.toNat)
          edge := s.edge + (17 + 8 * dlc.toNat)
          frame := f
          crc := f.crc
          hold := id ++ dlc ++ maskPayload dlc data
          cnt := 0
          busy := false
          fValid := true
          errLen := false }) ∧
    ∀ k, 1 ≤ k → k ≤ 16 + 8 * dlc.toNat → ∃ t, runEdges k s = .next t ∧ t.busy = true ∧ t.frame = s.frame

/-! ### The Vehicle Simulator -/

/-- R210: the accept edge common to the four TICK forms, each with its own advance. -/
def Obligations.TickAcceptEdge : Prop :=
  ∀ (i : Instr) (advance : Cfg → Vehicle → Vehicle),
    (i, advance) ∈ [(.tickAuto, advanceAuto), (.tickMbrk, advanceMbrk), (.tickMcst, advanceMcst)] ∨
      (∃ thrIn, i = .tickMacc thrIn ∧ advance = advanceMacc thrIn) →
    ∀ s : State, ∃ t, exec i s = .next t ∧
      t.cnt.toNat = 15 + 8 * (encodeSignal s.cfg (kindAt s.cfg s.idx) (advance s.cfg s.veh)).dlc.toNat ∧
      (s.cfg.valid = true → t.idx.toNat = (s.idx.toNat + 1) % s.cfg.kinds.length) ∧
      t = { s with
        veh := advance s.cfg s.veh
        idx := t.idx
        hold :=
          (encodeSignal s.cfg (kindAt s.cfg s.idx) (advance s.cfg s.veh)).id ++
          (encodeSignal s.cfg (kindAt s.cfg s.idx) (advance s.cfg s.veh)).dlc ++
          (encodeSignal s.cfg (kindAt s.cfg s.idx) (advance s.cfg s.veh)).data
        cnt := t.cnt
        crc := 0
        busy := true
        fValid := false
        errLen := false }

/-- R153, with R152 and R157: TICK.AUTO in Idle holds the idle values and the speed, and leaves to Accelerate when the
counted ticks exceed the dwell threshold. -/
def Obligations.IdleLaw : Prop :=
  ∀ s : State, s.cfg.valid = true → s.veh.phase = .idle →
    ∃ t, exec .tickAuto s = .next t ∧
      t.veh.rpm.toNat = s.cfg.idleRpm ∧ t.veh.throttle = 0 ∧ t.veh.brake = true ∧ t.veh.speed = s.veh.speed ∧
      if s.cfg.idleDwellTicks < min (s.veh.ticks.toNat + 1) 65535
      then t.veh.phase = .accelerate ∧ t.veh.ticks = 0
      else t.veh.phase = .idle ∧ t.veh.ticks.toNat = min (s.veh.ticks.toNat + 1) 65535

/-- R154, with R152 and R157: TICK.AUTO in Accelerate ramps the throttle to its cap, sets rpm from the new throttle,
raises the speed to the target, and leaves to Cruise when the new speed has reached it. No value wraps (R165). -/
def Obligations.AccelerateLaw : Prop :=
  ∀ s : State, s.cfg.valid = true → s.veh.phase = .accelerate →
    ∃ t, exec .tickAuto s = .next t ∧
      t.veh.throttle.toNat = min (s.veh.throttle.toNat + s.cfg.accelThrottleStep) s.cfg.accelThrottleCap ∧
      t.veh.rpm.toNat = clamp (s.cfg.rpmBase + t.veh.throttle.toNat * s.cfg.rpmGain) s.cfg.idleRpm s.cfg.rpmMax ∧
      t.veh.speed.toNat =
        (if s.veh.speed.toNat < s.cfg.accelTargetSpeed
          then min (s.veh.speed.toNat + s.cfg.accelSpeedStep) s.cfg.accelTargetSpeed else s.veh.speed.toNat) ∧
      t.veh.brake = false ∧
      if s.cfg.accelTargetSpeed ≤ t.veh.speed.toNat
      then t.veh.phase = .cruise ∧ t.veh.ticks = 0
      else t.veh.phase = .accelerate ∧ t.veh.ticks.toNat = min (s.veh.ticks.toNat + 1) 65535

/-- R155, with R152 and R157: TICK.AUTO in Cruise holds the cruise values and the speed, and leaves to Brake when the
counted ticks exceed the dwell threshold. -/
def Obligations.CruiseLaw : Prop :=
  ∀ s : State, s.cfg.valid = true → s.veh.phase = .cruise →
    ∃ t, exec .tickAuto s = .next t ∧
      t.veh.throttle.toNat = s.cfg.cruiseThrottle ∧ t.veh.rpm.toNat = s.cfg.cruiseRpm ∧
      t.veh.speed = s.veh.speed ∧ t.veh.brake = false ∧
      if s.cfg.cruiseDwellTicks < min (s.veh.ticks.toNat + 1) 65535
      then t.veh.phase = .brake ∧ t.veh.ticks = 0
      else t.veh.phase = .cruise ∧ t.veh.ticks.toNat = min (s.veh.ticks.toNat + 1) 65535

/-- R156, with R152 and R157: TICK.AUTO in Brake decays rpm and speed linearly to their floors and leaves to Idle when the
new speed is 0. -/
def Obligations.BrakeLaw : Prop :=
  ∀ s : State, s.cfg.valid = true → s.veh.phase = .brake →
    ∃ t, exec .tickAuto s = .next t ∧
      t.veh.throttle = 0 ∧ t.veh.brake = true ∧
      t.veh.rpm.toNat =
        (if s.cfg.idleRpm + s.cfg.brakeRpmStep ≤ s.veh.rpm.toNat
          then s.veh.rpm.toNat - s.cfg.brakeRpmStep else s.cfg.idleRpm) ∧
      t.veh.speed.toNat =
        (if s.cfg.brakeSpeedStep ≤ s.veh.speed.toNat then s.veh.speed.toNat - s.cfg.brakeSpeedStep else 0) ∧
      if t.veh.speed = 0
      then t.veh.phase = .idle ∧ t.veh.ticks = 0
      else t.veh.phase = .brake ∧ t.veh.ticks.toNat = min (s.veh.ticks.toNat + 1) 65535

/-- R162: TICK.MACC sets the throttle to the sampled input clamped to 100, rpm from it, and raises the speed by the scaled
step up to `SPEED_MAX`; the phase becomes Brake (R161), coolant and steering as at every tick (R158, R159). -/
def Obligations.ManualAccelerateLaw : Prop :=
  ∀ (thrIn : BitVec 7) (s : State), s.cfg.valid = true →
    ∃ t, exec (.tickMacc thrIn) s = .next t ∧
      t.veh.throttle.toNat = min thrIn.toNat 100 ∧
      t.veh.rpm.toNat = clamp (s.cfg.rpmBase + min thrIn.toNat 100 * s.cfg.rpmGain) s.cfg.idleRpm s.cfg.rpmMax ∧
      t.veh.speed.toNat =
        min (s.veh.speed.toNat + s.cfg.accelSpeedStep * min thrIn.toNat 100 / 100) s.cfg.speedMax ∧
      t.veh.coolant.toInt =
        (if s.veh.coolant.toInt < s.cfg.coolantCeiling
          then min (s.veh.coolant.toInt + s.cfg.coolantStep) s.cfg.coolantCeiling else s.veh.coolant.toInt) ∧
      t.veh.steer = s.veh.steer ∧
      t.veh.brake = false ∧ t.veh.phase = .brake ∧ t.veh.ticks = 0

/-- R163: TICK.MBRK applies the Brake law's signal lines and stays in Brake even at standstill (R161). -/
def Obligations.ManualBrakeLaw : Prop :=
  ∀ s : State, s.cfg.valid = true →
    ∃ t, exec .tickMbrk s = .next t ∧
      t.veh.throttle = 0 ∧ t.veh.brake = true ∧
      t.veh.rpm.toNat =
        (if s.cfg.idleRpm + s.cfg.brakeRpmStep ≤ s.veh.rpm.toNat
          then s.veh.rpm.toNat - s.cfg.brakeRpmStep else s.cfg.idleRpm) ∧
      t.veh.speed.toNat =
        (if s.cfg.brakeSpeedStep ≤ s.veh.speed.toNat then s.veh.speed.toNat - s.cfg.brakeSpeedStep else 0) ∧
      t.veh.coolant.toInt =
        (if s.veh.coolant.toInt < s.cfg.coolantCeiling
          then min (s.veh.coolant.toInt + s.cfg.coolantStep) s.cfg.coolantCeiling else s.veh.coolant.toInt) ∧
      t.veh.steer = s.veh.steer ∧
      t.veh.phase = .brake ∧ t.veh.ticks = 0

/-- R164: TICK.MCST releases throttle and brake and decays rpm and speed by the coast steps; the phase becomes Brake
(R161). -/
def Obligations.ManualCoastLaw : Prop :=
  ∀ s : State, s.cfg.valid = true →
    ∃ t, exec .tickMcst s = .next t ∧
      t.veh.throttle = 0 ∧ t.veh.brake = false ∧
      t.veh.rpm.toNat =
        (if s.cfg.idleRpm + s.cfg.coastRpmStep ≤ s.veh.rpm.toNat
          then s.veh.rpm.toNat - s.cfg.coastRpmStep else s.cfg.idleRpm) ∧
      t.veh.speed.toNat =
        (if s.cfg.coastSpeedStep ≤ s.veh.speed.toNat then s.veh.speed.toNat - s.cfg.coastSpeedStep else 0) ∧
      t.veh.coolant.toInt =
        (if s.veh.coolant.toInt < s.cfg.coolantCeiling
          then min (s.veh.coolant.toInt + s.cfg.coolantStep) s.cfg.coolantCeiling else s.veh.coolant.toInt) ∧
      t.veh.steer = s.veh.steer ∧
      t.veh.phase = .brake ∧ t.veh.ticks = 0

/-- R158, R159: at every tick of every form the coolant rises by `COOLANT_STEP` up to the ceiling, stays there for ever,
and the steering angle does not change. -/
def Obligations.CoolantAndSteeringLaw : Prop :=
  ∀ (i : Instr) (s : State), s.cfg.valid = true → isTick i = true →
    ∃ t, exec i s = .next t ∧
      t.veh.coolant.toInt =
        (if s.veh.coolant.toInt < s.cfg.coolantCeiling
          then min (s.veh.coolant.toInt + s.cfg.coolantStep) s.cfg.coolantCeiling else s.veh.coolant.toInt) ∧
      t.veh.steer = s.veh.steer

/-- R243 (b): a sampled throttle above 100 is treated as 100, not rejected. -/
def Obligations.SampledThrottleClamped : Prop :=
  ∀ (thrIn : BitVec 7) (s : State), 100 ≤ thrIn.toNat → exec (.tickMacc thrIn) s = exec (.tickMacc 100) s

/-- R166: the vehicle registers never leave their domains, under any input; and the coolant never falls at an edge with
`rst` = 0 (that a reset edge is excepted is the model's reading, A10). -/
def Obligations.VehicleDomainsKept : Prop :=
  ∀ s t : State, VehicleInDomain s → step s = .next t →
    VehicleInDomain t ∧ ((pins s).rst = false → s.veh.coolant.toInt ≤ t.veh.coolant.toInt)

/-- R167 (d): the speed rises only at a tick whose law is Accelerate or at TICK.MACC. -/
def Obligations.SpeedRisesOnlyAccelerating : Prop :=
  ∀ s t : State, step s = .next t → s.veh.speed.toNat < t.veh.speed.toNat →
    (Accepts .tickAuto s ∧ s.veh.phase = .accelerate) ∨ ∃ thrIn, Accepts (.tickMacc thrIn) s

/-- R167 (a), (b): from Idle at rest, under TICK.AUTO operations only, the phases follow one another in blocks of the
stated lengths, for ever. -/
def Obligations.DriveCycleIsPeriodic : Prop :=
  ∀ s : State, s.cfg.valid = true → s.veh.phase = .idle → s.veh.speed = 0 → s.veh.ticks = 0 →
    ∀ n, (atomicRun (List.replicate n .tickAuto) s).veh.phase = cyclePhase s.cfg (n % cycleTicks s.cfg)

/-! ### The Frame Scheduler -/

/-- R192: identifier, length and payload of each kind, unlisted payload bytes zero. -/
def Obligations.SignalEncoders : Prop :=
  ∀ (c : Cfg) (v : Vehicle), c.valid = true →
    (∀ k, ((encodeSignal c k v).id.toNat, (encodeSignal c k v).dlc.toNat) =
      match k with
      | .rpm => (c.idRpm, 2)
      | .speed => (c.idSpeed, 1)
      | .thrbrk => (c.idThrbrk, 2)
      | .coolant => (c.idCoolant, 1)
      | .steer => (c.idSteer, 1)) ∧
    (∀ (k : Kind) (i : Fin 8), (encodeSignal c k v).dlc.toNat ≤ i.val → payloadByte (encodeSignal c k v).data i = 0) ∧
    (payloadByte (encodeSignal c .rpm v).data 0).toNat = v.rpm.toNat / 256 ∧
    (payloadByte (encodeSignal c .rpm v).data 1).toNat = v.rpm.toNat % 256 ∧
    payloadByte (encodeSignal c .speed v).data 0 = v.speed ∧
    (payloadByte (encodeSignal c .thrbrk v).data 0).toNat = v.throttle.toNat ∧
    (payloadByte (encodeSignal c .thrbrk v).data 1).toNat = v.brake.toNat ∧
    payloadByte (encodeSignal c .coolant v).data 0 = v.coolant ∧
    payloadByte (encodeSignal c .steer v).data 0 = v.steer

/-- R193: over any sequence of operations the index counts the ticks modulo K, and the tick after n ticks from index 0
sends the identifier of `KINDS[n mod K]`, whatever the vehicle does. -/
def Obligations.RotationIsRoundRobin : Prop :=
  ∀ (ops : List Instr) (s : State), s.cfg.valid = true → s.idx = 0 →
    (atomicRun ops s).idx.toNat = (ops.filter isTick).length % s.cfg.kinds.length ∧
    ∀ i, isTick i = true → ∃ k, s.cfg.kinds[(ops.filter isTick).length % s.cfg.kinds.length]? = some k ∧
      ∀ v, (atomicRun (ops ++ [i]) s).frame.id = (encodeSignal s.cfg k v).id

/-- R195: decoding the payload of the frame a tick latched gives back the register it was built from, exactly. -/
def Obligations.PayloadRoundTrip : Prop :=
  ∀ (i : Instr) (s t : State), Accepts i s → isTick i = true → NoResetFor (completionEdges i s) s →
    runEdges (completionEdges i s) s = .next t →
    match kindAt s.cfg s.idx with
    | .rpm => be16 t.frame.data 0 = t.veh.rpm.toNat
    | .speed => (payloadByte t.frame.data 0).toNat = t.veh.speed.toNat
    | .thrbrk => (payloadByte t.frame.data 0).toNat = t.veh.throttle.toNat ∧
        (payloadByte t.frame.data 1).toNat = t.veh.brake.toNat
    | .coolant => (payloadByte t.frame.data 0).toInt = t.veh.coolant.toInt
    | .steer => (payloadByte t.frame.data 0).toInt = t.veh.steer.toInt

/-- R218: TICK as one transition, each form with its own advance: after 25 or 33 edges the vehicle has advanced, the index
has rotated, and the frame encoded from the new vehicle values stands on the frame ports; nothing else has changed. -/
def Obligations.TickAsOneTransition : Prop :=
  ∀ (i : Instr) (advance : Cfg → Vehicle → Vehicle) (s : State),
    (i, advance) ∈ [(.tickAuto, advanceAuto), (.tickMbrk, advanceMbrk), (.tickMcst, advanceMcst)] ∨
      (∃ thrIn, i = .tickMacc thrIn ∧ advance = advanceMacc thrIn) →
    Accepts i s →
    ∀ n, n = 17 + 8 * (encodeSignal s.cfg (kindAt s.cfg s.idx) (advance s.cfg s.veh)).dlc.toNat →
    NoResetFor n s →
    ∃ f idx, build (encodeSignal s.cfg (kindAt s.cfg s.idx) (advance s.cfg s.veh)).id
          (encodeSignal s.cfg (kindAt s.cfg s.idx) (advance s.cfg s.veh)).dlc
          (encodeSignal s.cfg (kindAt s.cfg s.idx) (advance s.cfg s.veh)).data = .ok f ∧
      idx.toNat = (s.idx.toNat + 1) % s.cfg.kinds.length ∧
      runEdges n s =
        .next { s with
          script := s.script.drop n
          edge := s.edge + n
          veh := advance s.cfg s.veh
          idx := idx
          frame := f
          crc := f.crc
          hold := f.id ++ f.dlc ++ f.data
          cnt := 0
          busy := false
          fValid := true
          errLen := false }

/-! ### Timing, sequences and invariants -/

/-- R270: `busy` is 1 after every edge of an operation before its last, and 0 after its last, so the next command is
accepted at the edge after that. -/
def Obligations.CycleCounts : Prop :=
  ∀ (i : Instr) (s : State), Accepts i s → NoResetFor (completionEdges i s) s →
    (∃ t, runEdges (completionEdges i s) s = .next t ∧ t.busy = false) ∧
    ∀ k, 1 ≤ k → k < completionEdges i s → ∃ t, runEdges k s = .next t ∧ t.busy = true

/-- R218: a host that waits for each operation sees the block run them as atomic transitions, one after the other. -/
def Obligations.OperationSequencesRefine : Prop :=
  ∀ (ops : List Instr) (s : State) (rest : List Pins), s.cfg.valid = true → s.busy = false →
    s.script = scriptOf (operationLines ops s) ++ rest →
    runEdges (operationLines ops s).length s =
      .next { atomicRun ops s with script := rest, edge := s.edge + (operationLines ops s).length }

/-- R242: under NOPs the state persists; only the two pulse flags fall. -/
def Obligations.NopsChangeNothing : Prop :=
  ∀ (n : Nat) (s : State) (rest : List Pins), 1 ≤ n → s.cfg.valid = true → s.busy = false →
    s.script = scriptOf (List.replicate n (.op .nop)) ++ rest →
    runEdges n s = .next { s with script := rest, edge := s.edge + n, fValid := false, errLen := false }

/-- R215, R216: NOP and the three reserved codes clear the pulse flags and change nothing else. -/
def Obligations.NopAndReservedEffect : Prop :=
  ∀ i ∈ [Instr.nop, .rsvd5, .rsvd6, .rsvd7], ∀ s : State,
    exec i s = .next { s with fValid := false, errLen := false }

/-- R28, R137: every step keeps the checksum a pure derived value of the frame on the ports, and keeps the run in progress
one that an accept edge started. -/
def Obligations.ChecksumInvariantKept : Prop :=
  ∀ s t : State, FrameConsistent s.frame → RunConsistent s → step s = .next t →
    FrameConsistent t.frame ∧ RunConsistent t

/-- R32, R29, R36, R37, R133: every step keeps the index below K and the flags in agreement. -/
def Obligations.IndexAndFlagsKept : Prop :=
  ∀ s t : State, s.idx.toNat < s.cfg.kinds.length → FlagsConsistent s → step s = .next t →
    t.idx.toNat < t.cfg.kinds.length ∧ FlagsConsistent t

/-- The state after reset satisfies every invariant, under every valid configuration; among them `State.reset`, whose
configuration `CFG_REF` is the model's choice (A1). -/
def Obligations.ResetStateIsLegal : Prop :=
  (∀ (c : Cfg) (script : List Pins) (edge : Nat), c.valid = true → Legal (State.ofReset c script edge)) ∧
  Legal State.reset

/-- R217, R272: from every legal state the block runs for ever, whatever the host drives, and every state it reaches is
legal. -/
def Obligations.LegalStatesRunForever : Prop :=
  ∀ (s : State) (n : Nat), Legal s → ∃ t, runEdges n s = .next t ∧ Legal t

/-- R99, R98: `WAIT` from a run in progress lasts exactly to the run's end; an operation's line issued during the run is
dropped, and the `WAIT` after it lasts to that same end, in the same state. -/
def Obligations.WaitLastsToTheEndOfTheRun : Prop :=
  ∀ (i : Instr) (s : State) (rest : List Pins), s.cfg.valid = true → s.busy = true → s.cnt.toNat ≤ 79 →
    (∃ t, t.busy = false ∧ t.script = rest ∧
      runEdges (waitLines s).length { s with script := scriptOf (waitLines s) ++ rest } = .next t ∧
      runEdges (withWait i s).length { s with script := scriptOf (withWait i s) ++ rest } = .next t) ∧
    ∀ k, 1 ≤ k → k < (withWait i s).length →
      ∃ t, runEdges k { s with script := scriptOf (withWait i s) ++ rest } = .next t ∧ t.busy = true
end

