-- ==== Sys2Proof/Laws/Frame.lean ====
section
/-!
SUPPORT. The frame image, the payload mask, the stream and the CRC engine: what each operation gives, bit by bit, so that
no proof unfolds a slice.
-/

namespace Sys2Proof.Machine

/-! The frame image (R90). -/

/-- Bit `k` of a frame image, by the field it falls in. -/
theorem frameImage_getLsbD (id : Identifier) (dlc : Length) (data : Payload) (k : Nat) :
    (frameImage id dlc data).getLsbD k =
      if k < 64 then data.getLsbD k else if k < 68 then dlc.getLsbD (k - 64) else id.getLsbD (k - 68) := by
  have h : k - 64 < 4 ↔ k < 68 := by omega
  unfold frameImage
  rw [BitVec.getLsbD_append, BitVec.getLsbD_append]
  simp only [h, show k - 64 - 4 = k - 68 by omega]

/-- A frame image's fields are what it was made of. -/
@[simp] theorem imageId_frameImage (id : Identifier) (dlc : Length) (data : Payload) :
    imageId (frameImage id dlc data) = id := by
  apply BitVec.eq_of_getLsbD_eq
  intro i hi
  rw [imageId, BitVec.getLsbD_extractLsb', frameImage_getLsbD, if_neg (by omega), if_neg (by omega)]
  simp [hi]

@[simp] theorem imageDlc_frameImage (id : Identifier) (dlc : Length) (data : Payload) :
    imageDlc (frameImage id dlc data) = dlc := by
  apply BitVec.eq_of_getLsbD_eq
  intro i hi
  rw [imageDlc, BitVec.getLsbD_extractLsb', frameImage_getLsbD, if_neg (by omega), if_pos (by omega)]
  simp [hi]

@[simp] theorem imageData_frameImage (id : Identifier) (dlc : Length) (data : Payload) :
    imageData (frameImage id dlc data) = data := by
  apply BitVec.eq_of_getLsbD_eq
  intro i hi
  rw [imageData, BitVec.getLsbD_extractLsb', frameImage_getLsbD, if_pos (by omega)]
  simp [hi]

/-- A 79-bit value is the frame image of its fields. -/
theorem frameImage_image (h : FrameImage) : frameImage (imageId h) (imageDlc h) (imageData h) = h := by
  apply BitVec.eq_of_getLsbD_eq
  intro i hi
  rw [frameImage_getLsbD]
  simp only [imageId, imageDlc, imageData, BitVec.getLsbD_extractLsb']
  split
  · simp [*]
  · split
    · simp [show i - 64 < 4 by omega, show 64 + (i - 64) = i by omega]
    · simp [show i - 68 < 11 by omega, show 68 + (i - 68) = i by omega]

/-! Payload bytes and the mask (R61, R139). -/

/-- Bit `j` of payload byte `i`. -/
theorem payloadByte_getLsbD (d : Payload) (i : Fin 8) (j : Nat) :
    (payloadByte d i).getLsbD j = (decide (j < 8) && d.getLsbD (56 - 8 * i.val + j)) := by
  simp [payloadByte, BitVec.getLsbD_extractLsb']

/-- The mask keeps exactly the bits of the bytes below the length. -/
theorem maskPayload_getLsbD (dlc : Length) (data : Payload) (k : Nat) :
    (maskPayload dlc data).getLsbD k = (data.getLsbD k && decide (64 - 8 * dlc.toNat ≤ k)) := by
  by_cases hk : k < 64
  · rw [maskPayload, BitVec.getLsbD_and, BitVec.getLsbD_not, BitVec.getLsbD_ofNat, Nat.testBit_two_pow_sub_one]
    by_cases h : 64 - 8 * dlc.toNat ≤ k
    · simp [h, hk, Nat.not_lt.mpr h]
    · simp [h, hk, Nat.lt_of_not_le h]
  · rw [BitVec.getLsbD_of_ge _ _ (by omega), BitVec.getLsbD_of_ge _ _ (by omega)]
    rfl

/-! The stream and the LFSR (R89, R110, R112). -/

@[simp] theorem imageStream_length (h : FrameImage) (n : Nat) : (imageStream h n).length = n := by simp [imageStream]

/-- One more stream bit is the next lower image bit. -/
theorem imageStream_succ (h : FrameImage) (n : Nat) : imageStream h (n + 1) = imageStream h n ++ [h.getLsbD (78 - n)] := by
  simp [imageStream, List.range_succ]

@[simp] theorem crcSteps_nil (c : Crc) : crcSteps c [] = c := rfl

@[simp] theorem crcSteps_cons (c : Crc) (b : Bool) (bs : List Bool) :
    crcSteps c (b :: bs) = crcSteps (crcStep c b) bs := rfl

theorem crcSteps_append (c : Crc) (as bs : List Bool) : crcSteps c (as ++ bs) = crcSteps (crcSteps c as) bs := by
  simp [crcSteps]

/-- The LFSR after one more stream bit. -/
theorem crcSteps_imageStream_succ (c : Crc) (h : FrameImage) (n : Nat) :
    crcSteps c (imageStream h (n + 1)) = crcStep (crcSteps c (imageStream h n)) (h.getLsbD (78 - n)) := by
  rw [imageStream_succ, crcSteps_append]
  rfl

/-- The checksum where the rules define it. -/
theorem computeCrc15_of_le {id : Identifier} {dlc : Length} {data : Payload} (h : dlc.toNat ≤ 8) :
    computeCrc15 id dlc data = crcSteps 0 (imageStream (frameImage id dlc data) (streamLength dlc)) := by
  simp [computeCrc15, stream, h]

/-- The bit a shift edge reads, `j` bits into a run. -/
theorem shiftBit_eq {hold : FrameImage} {cnt : BitVec 7} {j : Nat} (h : cnt.toNat + j = streamLength (imageDlc hold))
    (hj : j ≤ 78) : shiftBit hold cnt = hold.getLsbD (78 - j) := by
  simp only [shiftBit]
  rw [if_pos (by omega)]
  congr 1
  omega

/-- The stream counter a run starts with loses nothing in seven bits. -/
theorem streamLength_toNat {dlc : Length} (h : dlc.toNat ≤ 8) :
    (BitVec.ofNat 7 (streamLength dlc)).toNat = streamLength dlc := by
  simp only [streamLength, BitVec.toNat_ofNat]
  omega

end Sys2Proof.Machine
end

