-- ==== Sys2Proof/Laws/State.lean ====
section
/-!
SUPPORT. One lemma per field per state update, each true by `rfl`, so that no proof unfolds a record update.
-/

namespace Sys2Proof.Machine

/-! `passEdge`: the edge passes: only the host side moves (R271). -/

@[simp] theorem passEdge_cfg (s : State) : (passEdge s).cfg = s.cfg := rfl
@[simp] theorem passEdge_script (s : State) : (passEdge s).script = s.script.tail := rfl
@[simp] theorem passEdge_edge (s : State) : (passEdge s).edge = s.edge + 1 := rfl
@[simp] theorem passEdge_crc (s : State) : (passEdge s).crc = s.crc := rfl
@[simp] theorem passEdge_veh (s : State) : (passEdge s).veh = s.veh := rfl
@[simp] theorem passEdge_frame (s : State) : (passEdge s).frame = s.frame := rfl
@[simp] theorem passEdge_fValid (s : State) : (passEdge s).fValid = s.fValid := rfl
@[simp] theorem passEdge_idx (s : State) : (passEdge s).idx = s.idx := rfl
@[simp] theorem passEdge_busy (s : State) : (passEdge s).busy = s.busy := rfl
@[simp] theorem passEdge_cnt (s : State) : (passEdge s).cnt = s.cnt := rfl
@[simp] theorem passEdge_hold (s : State) : (passEdge s).hold = s.hold := rfl
@[simp] theorem passEdge_errLen (s : State) : (passEdge s).errLen = s.errLen := rfl
@[simp] theorem passEdge_errSticky (s : State) : (passEdge s).errSticky = s.errSticky := rfl

/-! `clearPulses`: the two one-period flags fall, nothing else (R215). -/

@[simp] theorem clearPulses_cfg (s : State) : (clearPulses s).cfg = s.cfg := rfl
@[simp] theorem clearPulses_script (s : State) : (clearPulses s).script = s.script := rfl
@[simp] theorem clearPulses_edge (s : State) : (clearPulses s).edge = s.edge := rfl
@[simp] theorem clearPulses_crc (s : State) : (clearPulses s).crc = s.crc := rfl
@[simp] theorem clearPulses_veh (s : State) : (clearPulses s).veh = s.veh := rfl
@[simp] theorem clearPulses_frame (s : State) : (clearPulses s).frame = s.frame := rfl
@[simp] theorem clearPulses_fValid (s : State) : (clearPulses s).fValid = false := rfl
@[simp] theorem clearPulses_idx (s : State) : (clearPulses s).idx = s.idx := rfl
@[simp] theorem clearPulses_busy (s : State) : (clearPulses s).busy = s.busy := rfl
@[simp] theorem clearPulses_cnt (s : State) : (clearPulses s).cnt = s.cnt := rfl
@[simp] theorem clearPulses_hold (s : State) : (clearPulses s).hold = s.hold := rfl
@[simp] theorem clearPulses_errLen (s : State) : (clearPulses s).errLen = false := rfl
@[simp] theorem clearPulses_errSticky (s : State) : (clearPulses s).errSticky = s.errSticky := rfl

/-! `startRun`: a run starts (R131). -/

@[simp] theorem startRun_cfg (id : Identifier) (dlc : Length) (data : Payload) (s : State) : (startRun id dlc data s).cfg = s.cfg := rfl
@[simp] theorem startRun_script (id : Identifier) (dlc : Length) (data : Payload) (s : State) : (startRun id dlc data s).script = s.script := rfl
@[simp] theorem startRun_edge (id : Identifier) (dlc : Length) (data : Payload) (s : State) : (startRun id dlc data s).edge = s.edge := rfl
@[simp] theorem startRun_crc (id : Identifier) (dlc : Length) (data : Payload) (s : State) : (startRun id dlc data s).crc = 0 := rfl
@[simp] theorem startRun_veh (id : Identifier) (dlc : Length) (data : Payload) (s : State) : (startRun id dlc data s).veh = s.veh := rfl
@[simp] theorem startRun_frame (id : Identifier) (dlc : Length) (data : Payload) (s : State) : (startRun id dlc data s).frame = s.frame := rfl
@[simp] theorem startRun_fValid (id : Identifier) (dlc : Length) (data : Payload) (s : State) : (startRun id dlc data s).fValid = false := rfl
@[simp] theorem startRun_idx (id : Identifier) (dlc : Length) (data : Payload) (s : State) : (startRun id dlc data s).idx = s.idx := rfl
@[simp] theorem startRun_busy (id : Identifier) (dlc : Length) (data : Payload) (s : State) : (startRun id dlc data s).busy = true := rfl
@[simp] theorem startRun_cnt (id : Identifier) (dlc : Length) (data : Payload) (s : State) : (startRun id dlc data s).cnt = BitVec.ofNat 7 (streamLength dlc) := rfl
@[simp] theorem startRun_hold (id : Identifier) (dlc : Length) (data : Payload) (s : State) : (startRun id dlc data s).hold = frameImage id dlc data := rfl
@[simp] theorem startRun_errLen (id : Identifier) (dlc : Length) (data : Payload) (s : State) : (startRun id dlc data s).errLen = false := rfl
@[simp] theorem startRun_errSticky (id : Identifier) (dlc : Length) (data : Payload) (s : State) : (startRun id dlc data s).errSticky = s.errSticky := rfl

/-! `raiseInvalidLength`: InvalidLength is taken (R232). -/

@[simp] theorem raiseInvalidLength_cfg (s : State) : (raiseInvalidLength s).cfg = s.cfg := rfl
@[simp] theorem raiseInvalidLength_script (s : State) : (raiseInvalidLength s).script = s.script := rfl
@[simp] theorem raiseInvalidLength_edge (s : State) : (raiseInvalidLength s).edge = s.edge := rfl
@[simp] theorem raiseInvalidLength_crc (s : State) : (raiseInvalidLength s).crc = s.crc := rfl
@[simp] theorem raiseInvalidLength_veh (s : State) : (raiseInvalidLength s).veh = s.veh := rfl
@[simp] theorem raiseInvalidLength_frame (s : State) : (raiseInvalidLength s).frame = s.frame := rfl
@[simp] theorem raiseInvalidLength_fValid (s : State) : (raiseInvalidLength s).fValid = false := rfl
@[simp] theorem raiseInvalidLength_idx (s : State) : (raiseInvalidLength s).idx = s.idx := rfl
@[simp] theorem raiseInvalidLength_busy (s : State) : (raiseInvalidLength s).busy = s.busy := rfl
@[simp] theorem raiseInvalidLength_cnt (s : State) : (raiseInvalidLength s).cnt = s.cnt := rfl
@[simp] theorem raiseInvalidLength_hold (s : State) : (raiseInvalidLength s).hold = s.hold := rfl
@[simp] theorem raiseInvalidLength_errLen (s : State) : (raiseInvalidLength s).errLen = true := rfl
@[simp] theorem raiseInvalidLength_errSticky (s : State) : (raiseInvalidLength s).errSticky = true := rfl

/-! `latchEdge`: the frame is latched (R133). -/

@[simp] theorem latchEdge_cfg (s : State) : (latchEdge s).cfg = s.cfg := rfl
@[simp] theorem latchEdge_script (s : State) : (latchEdge s).script = s.script := rfl
@[simp] theorem latchEdge_edge (s : State) : (latchEdge s).edge = s.edge := rfl
@[simp] theorem latchEdge_crc (s : State) : (latchEdge s).crc = s.crc := rfl
@[simp] theorem latchEdge_veh (s : State) : (latchEdge s).veh = s.veh := rfl
@[simp] theorem latchEdge_frame (s : State) : (latchEdge s).frame = ⟨imageId s.hold, imageDlc s.hold, imageData s.hold, s.crc⟩ := rfl
@[simp] theorem latchEdge_fValid (s : State) : (latchEdge s).fValid = true := rfl
@[simp] theorem latchEdge_idx (s : State) : (latchEdge s).idx = s.idx := rfl
@[simp] theorem latchEdge_busy (s : State) : (latchEdge s).busy = false := rfl
@[simp] theorem latchEdge_cnt (s : State) : (latchEdge s).cnt = s.cnt := rfl
@[simp] theorem latchEdge_hold (s : State) : (latchEdge s).hold = s.hold := rfl
@[simp] theorem latchEdge_errLen (s : State) : (latchEdge s).errLen = false := rfl
@[simp] theorem latchEdge_errSticky (s : State) : (latchEdge s).errSticky = s.errSticky := rfl

/-! `resetEdge`: every register takes its reset value (R260). -/

@[simp] theorem resetEdge_cfg (s : State) : (resetEdge s).cfg = s.cfg := rfl
@[simp] theorem resetEdge_script (s : State) : (resetEdge s).script = s.script := rfl
@[simp] theorem resetEdge_edge (s : State) : (resetEdge s).edge = s.edge := rfl
@[simp] theorem resetEdge_crc (s : State) : (resetEdge s).crc = 0 := rfl
@[simp] theorem resetEdge_veh (s : State) : (resetEdge s).veh = Vehicle.ofReset s.cfg := rfl
@[simp] theorem resetEdge_frame (s : State) : (resetEdge s).frame = Frame.ofReset := rfl
@[simp] theorem resetEdge_fValid (s : State) : (resetEdge s).fValid = false := rfl
@[simp] theorem resetEdge_idx (s : State) : (resetEdge s).idx = 0 := rfl
@[simp] theorem resetEdge_busy (s : State) : (resetEdge s).busy = false := rfl
@[simp] theorem resetEdge_cnt (s : State) : (resetEdge s).cnt = 0 := rfl
@[simp] theorem resetEdge_hold (s : State) : (resetEdge s).hold = 0 := rfl
@[simp] theorem resetEdge_errLen (s : State) : (resetEdge s).errLen = false := rfl
@[simp] theorem resetEdge_errSticky (s : State) : (resetEdge s).errSticky = false := rfl

/-! `frameDone`: a run is over, its frame on the ports (R134). -/

@[simp] theorem frameDone_cfg (f : Frame) (s : State) : (frameDone f s).cfg = s.cfg := rfl
@[simp] theorem frameDone_script (f : Frame) (s : State) : (frameDone f s).script = s.script := rfl
@[simp] theorem frameDone_edge (f : Frame) (s : State) : (frameDone f s).edge = s.edge := rfl
@[simp] theorem frameDone_crc (f : Frame) (s : State) : (frameDone f s).crc = f.crc := rfl
@[simp] theorem frameDone_veh (f : Frame) (s : State) : (frameDone f s).veh = s.veh := rfl
@[simp] theorem frameDone_frame (f : Frame) (s : State) : (frameDone f s).frame = f := rfl
@[simp] theorem frameDone_fValid (f : Frame) (s : State) : (frameDone f s).fValid = true := rfl
@[simp] theorem frameDone_idx (f : Frame) (s : State) : (frameDone f s).idx = s.idx := rfl
@[simp] theorem frameDone_busy (f : Frame) (s : State) : (frameDone f s).busy = false := rfl
@[simp] theorem frameDone_cnt (f : Frame) (s : State) : (frameDone f s).cnt = 0 := rfl
@[simp] theorem frameDone_hold (f : Frame) (s : State) : (frameDone f s).hold = frameImage f.id f.dlc f.data := rfl
@[simp] theorem frameDone_errLen (f : Frame) (s : State) : (frameDone f s).errLen = false := rfl
@[simp] theorem frameDone_errSticky (f : Frame) (s : State) : (frameDone f s).errSticky = s.errSticky := rfl

end Sys2Proof.Machine
end

