-- ==== Sys2Proof/Laws/Ops.lean ====
section
/-!
SUPPORT. What each shared operation can do, said once: the ports, the edges, the step, the tick. Proofs cite these instead
of unfolding the definitions.
-/

namespace Sys2Proof.Machine

/-! Ports (R43, R271). -/

/-- The nearest entry of the script is what the next edge samples. -/
@[simp] theorem pins_cons (s : State) (p : Pins) (rest : List Pins) (h : s.script = p :: rest) : pins s = p := by
  simp [pins, pinsAt, h]

/-- After an edge, the port values one edge further on are nearest. -/
theorem pinsAt_passEdge (s : State) (j : Nat) : pinsAt (passEdge s) j = pinsAt s (j + 1) := by
  simp [pinsAt, passEdge, Nat.add_assoc, Nat.add_comm 1 j]

/-- The port values depend on the host's side of the state alone. -/
theorem pinsAt_congr {s t : State} (hs : t.script = s.script) (he : t.edge = s.edge) (j : Nat) :
    pinsAt t j = pinsAt s j := by
  simp [pinsAt, hs, he]

/-! The edges a run is made of (R132, R133). -/

/-- All a shift edge can do. -/
theorem shiftEdge_next {s t : State} (h : shiftEdge s = .next t) :
    s.cnt.toNat ≤ 79 ∧
      t = { s with
        crc := crcStep s.crc (shiftBit s.hold s.cnt), cnt := s.cnt - 1, fValid := false, errLen := false } := by
  unfold shiftEdge at h
  split at h
  · cases h
    exact ⟨by assumption, rfl⟩
  · cases h

/-- A shift edge of a state the rules cover answers. -/
theorem shiftEdge_of_cnt_le {s : State} (h : s.cnt.toNat ≤ 79) :
    shiftEdge s = .next { s with
        crc := crcStep s.crc (shiftBit s.hold s.cnt), cnt := s.cnt - 1, fValid := false, errLen := false } := by
  simp [shiftEdge, h]

/-! The accept edges of the families (R113, R114, R131, R210, R215, R216). -/

/-- All a BUILD can do: the exception, or the start of a run. -/
theorem execBuild_cases {id : Identifier} {dlc : Length} {data : Payload} {s t : State}
    (h : execBuild id dlc data s = .next t) :
    (8 < dlc.toNat ∧ t = raiseInvalidLength s) ∨
      (dlc.toNat ≤ 8 ∧ t = startRun id dlc (maskPayload dlc data) s) := by
  by_cases hd : 8 < dlc.toNat
  · simp only [execBuild, lengthInvalid, hd, decide_true, if_true] at h
    cases h
    exact .inl ⟨hd, rfl⟩
  · simp only [execBuild, lengthInvalid, hd, decide_false] at h
    cases h
    exact .inr ⟨by omega, rfl⟩

/-- A tick in the terms of its parts: advance, encode, rotate, start the run. -/
theorem tick_eq (advance : Cfg → Vehicle → Vehicle) (s : State) :
    tick advance s =
      startRun (encodeSignal s.cfg (kindAt s.cfg s.idx) (advance s.cfg s.veh)).id
        (encodeSignal s.cfg (kindAt s.cfg s.idx) (advance s.cfg s.veh)).dlc
        (encodeSignal s.cfg (kindAt s.cfg s.idx) (advance s.cfg s.veh)).data
        { s with veh := advance s.cfg s.veh, idx := rotate s.cfg s.idx } := rfl

/-- The advance function of a TICK form, and `none` for any other command. -/
def tickAdvance : Instr → Option (Cfg → Vehicle → Vehicle)
  | .nop => none
  | .crcClr => none
  | .crcBit _ => none
  | .build _ _ _ => none
  | .tickAuto => some advanceAuto
  | .tickMacc thrIn => some (advanceMacc thrIn)
  | .tickMbrk => some advanceMbrk
  | .tickMcst => some advanceMcst
  | .rsvd5 => none
  | .rsvd6 => none
  | .rsvd7 => none

/-- Every command answers a next state, which is one of six. -/
theorem exec_cases (i : Instr) (s : State) :
    ∃ t, exec i s = .next t ∧
      ((i ∈ [Instr.nop, .rsvd5, .rsvd6, .rsvd7] ∧ t = clearPulses s) ∨
        (i = .crcClr ∧ t = { s with crc := 0, fValid := false, errLen := false }) ∨
        (∃ din, i = .crcBit din ∧ t = { s with crc := crcStep s.crc din, fValid := false, errLen := false }) ∨
        (∃ id dlc data, i = .build id dlc data ∧ 8 < dlc.toNat ∧ t = raiseInvalidLength s) ∨
        (∃ id dlc data, i = .build id dlc data ∧ dlc.toNat ≤ 8 ∧ t = startRun id dlc (maskPayload dlc data) s) ∨
        ∃ advance, tickAdvance i = some advance ∧ t = tick advance s) := by
  cases i with
  | build id dlc data =>
    by_cases hd : 8 < dlc.toNat
    · exact ⟨raiseInvalidLength s, by simp [exec, execBuild, lengthInvalid, hd],
        .inr (.inr (.inr (.inl ⟨id, dlc, data, rfl, hd, rfl⟩)))⟩
    · exact ⟨startRun id dlc (maskPayload dlc data) s, by simp [exec, execBuild, lengthInvalid, hd],
        .inr (.inr (.inr (.inr (.inl ⟨id, dlc, data, rfl, by omega, rfl⟩))))⟩
  | nop => exact ⟨_, rfl, .inl ⟨by simp, rfl⟩⟩
  | rsvd5 => exact ⟨_, rfl, .inl ⟨by simp, rfl⟩⟩
  | rsvd6 => exact ⟨_, rfl, .inl ⟨by simp, rfl⟩⟩
  | rsvd7 => exact ⟨_, rfl, .inl ⟨by simp, rfl⟩⟩
  | crcClr => exact ⟨_, rfl, .inr (.inl ⟨rfl, rfl⟩)⟩
  | crcBit din => exact ⟨_, rfl, .inr (.inr (.inl ⟨din, rfl, rfl⟩))⟩
  | tickAuto => exact ⟨_, rfl, .inr (.inr (.inr (.inr (.inr ⟨_, rfl, rfl⟩))))⟩
  | tickMacc thrIn => exact ⟨_, rfl, .inr (.inr (.inr (.inr (.inr ⟨_, rfl, rfl⟩))))⟩
  | tickMbrk => exact ⟨_, rfl, .inr (.inr (.inr (.inr (.inr ⟨_, rfl, rfl⟩))))⟩
  | tickMcst => exact ⟨_, rfl, .inr (.inr (.inr (.inr (.inr ⟨_, rfl, rfl⟩))))⟩

/-! The step (R217). -/

/-- The branch an edge takes, by its conditions. -/
theorem step_eq {s : State} (hv : s.cfg.valid = true) :
    step s =
      if (pins s).rst = true then .next (resetEdge (passEdge s))
      else if s.busy = true then
        if s.cnt = 0 then .next (latchEdge (passEdge s)) else shiftEdge (passEdge s)
      else exec (decode (pins s).cw) (passEdge s) := by
  unfold step clockEdge coreEdge
  rw [if_pos hv]
  rfl

/-- All a step can do: if it answers, the configuration is valid and one of the four branches was taken. -/
theorem step_next_cases {s t : State} (h : step s = .next t) :
    s.cfg.valid = true ∧
      (((pins s).rst = true ∧ t = resetEdge (passEdge s)) ∨
        (AtLatchEdge s ∧ t = latchEdge (passEdge s)) ∨
        (AtShiftEdge s ∧ shiftEdge (passEdge s) = .next t) ∨
        ((pins s).rst = false ∧ s.busy = false ∧ exec (decode (pins s).cw) (passEdge s) = .next t)) := by
  by_cases hv : s.cfg.valid = true
  · refine ⟨hv, ?_⟩
    rw [step_eq hv] at h
    split at h
    · cases h
      exact .inl ⟨by assumption, rfl⟩
    · rename_i hr
      have hr : (pins s).rst = false := by simpa using hr
      split at h
      · rename_i hb
        split at h
        · rename_i hc
          cases h
          exact .inr (.inl ⟨⟨hr, hb, hc⟩, rfl⟩)
        · rename_i hc
          exact .inr (.inr (.inl ⟨⟨hr, hb, hc⟩, h⟩))
      · rename_i hb
        exact .inr (.inr (.inr ⟨hr, by simpa using hb, h⟩))
  · simp [step, clockEdge, hv] at h

/-! The pseudo-operations with `WAIT` (R99). -/

/-- Every operation takes at least its accept edge (R270). -/
theorem completionEdges_pos (i : Instr) (s : State) : 1 ≤ completionEdges i s := by
  cases i with
  | build _ dlc _ =>
    simp only [completionEdges]
    split <;> omega
  | tickAuto => cases h : kindAt s.cfg s.idx <;> simp [completionEdges, tickEdges, h]
  | tickMacc _ => cases h : kindAt s.cfg s.idx <;> simp [completionEdges, tickEdges, h]
  | tickMbrk => cases h : kindAt s.cfg s.idx <;> simp [completionEdges, tickEdges, h]
  | tickMcst => cases h : kindAt s.cfg s.idx <;> simp [completionEdges, tickEdges, h]
  | nop => exact Nat.le_refl 1
  | crcClr => exact Nat.le_refl 1
  | crcBit _ => exact Nat.le_refl 1
  | rsvd5 => exact Nat.le_refl 1
  | rsvd6 => exact Nat.le_refl 1
  | rsvd7 => exact Nat.le_refl 1

theorem waitedEdges_of_not_busy {i : Instr} {s : State} (h : s.busy = false) : waitedEdges i s = completionEdges i s := by
  simp [waitedEdges, h]

theorem waitedEdges_of_busy {i : Instr} {s : State} (h : s.busy = true) : waitedEdges i s = s.cnt.toNat + 1 := by
  simp [waitedEdges, h]

/-- An operation and its `WAIT` have one line per edge. -/
@[simp] theorem withWait_length (i : Instr) (s : State) : (withWait i s).length = waitedEdges i s := by
  have h : 1 ≤ waitedEdges i s := by
    unfold waitedEdges
    split
    · omega
    · exact completionEdges_pos i s
  simp only [withWait, List.length_cons, List.length_replicate]
  omega

@[simp] theorem waitLines_length (s : State) : (waitLines s).length = if s.busy then s.cnt.toNat + 1 else 0 := by
  simp [waitLines]

/-! Runs of edges (R272). -/

/-- The edges of a run of the machine, one after the other. -/
@[simp] theorem runEdges_zero (s : State) : runEdges 0 s = .next s := rfl

theorem runEdges_succ {s t : State} (k : Nat) (h : step s = .next t) : runEdges (k + 1) s = runEdges k t := by
  have hc : Sys2Proof.core.step s = .next t := h
  simp only [runEdges, Host.Core.run, hc]
  rfl

/-- If a stretch of edges answers, its first edge does. -/
theorem runEdges_succ_inv {s t : State} {k : Nat} (h : runEdges (k + 1) s = .next t) :
    ∃ u, step s = .next u ∧ runEdges k u = .next t := by
  simp only [runEdges, Host.Core.run] at h
  split at h
  · rename_i u hu
    exact ⟨u, hu, h⟩
  · cases h
  · cases h

/-- Two stretches of edges make one. -/
theorem runEdges_add {s t : State} {a : Nat} (b : Nat) (h : runEdges a s = .next t) :
    runEdges (a + b) s = runEdges b t := by
  induction a generalizing s with
  | zero => cases h; simp
  | succ a ih =>
    obtain ⟨u, hu, hr⟩ := runEdges_succ_inv h
    rw [show a + 1 + b = (a + b) + 1 by omega, runEdges_succ (a + b) hu]
    exact ih hr

end Sys2Proof.Machine
end

