-- ==== Sys2Proof/Laws/PerInstr.lean ====
section
/-!
SUPPORT. What is said of every command as syntax, one lemma per constructor: its canonical word has no bit outside the bits
the command reads, and selects exactly the command's own row of the operation map (R85, R98).
-/

namespace Sys2Proof

/-- `op` of a masked word. -/
theorem cwOp_and (a b : CommandWord) : cwOp (a &&& b) = cwOp a &&& cwOp b := by
  apply BitVec.eq_of_getLsbD_eq
  intro i hi
  simp [cwOp, hi]

/-- `op` of a BUILD word. -/
theorem cwOp_encodeB (op : BitVec 3) (id : Identifier) (dlc : Length) (data : Payload) :
    cwOp (encodeB op id dlc data) = op := by
  apply BitVec.eq_of_getLsbD_eq
  intro i hi
  rw [cwOp, encodeB, BitVec.getLsbD_extractLsb', BitVec.getLsbD_append, BitVec.getLsbD_append, BitVec.getLsbD_append]
  simp [hi, show ¬ 79 + i < 64 by omega, show ¬ 79 + i - 64 < 4 by omega, show ¬ 79 + i - 64 - 4 < 11 by omega,
    show 79 + i - 64 - 4 - 11 = i by omega]

/-- A word masked to `op` alone is `op` over 79 zeros. -/
theorem and_opMask (cw : CommandWord) : cw &&& 0x380000000000000000000 = cwOp cw ++ (0 : BitVec 79) := by
  have hm : ∀ k < 82, (0x380000000000000000000 : CommandWord).getLsbD k = decide (79 ≤ k) := by decide
  apply BitVec.eq_of_getLsbD_eq
  intro i hi
  rw [BitVec.getLsbD_and, hm i hi, BitVec.getLsbD_append, cwOp]
  by_cases h : i < 79
  · simp [h, Nat.not_le.mpr h]
  · simp [h, show 79 ≤ i by omega, show i - 79 < 3 by omega]

/-- A row that compares all of `op` selects only words with the pattern's `op`. -/
theorem cwOp_of_selectsRow {r : OpRow} {cw : CommandWord} (hm : cwOp r.mask = 7) (h : selectsRow r cw = true) :
    cwOp cw = cwOp r.pattern := by
  have e : cw &&& r.mask = r.pattern := by simpa [selectsRow] using h
  have e := congrArg cwOp e
  rw [cwOp_and, hm, show (7 : BitVec 3) = BitVec.allOnes 3 from rfl, BitVec.and_allOnes] at e
  exact e

namespace Laws.CanonicalWord

/-- The canonical word of `i` has no bit outside `i`'s read bits, and selects exactly `i`'s row. -/
def Statement (i : Instr) : Prop :=
  encode i &&& readMask i = encode i ∧ ∀ r ∈ opTable, selectsRow r (encode i) = true ↔ r.mnemonic = mnemonic i

theorem nop : Statement .nop := by
  unfold Statement
  decide

theorem crcClr : Statement .crcClr := by
  unfold Statement
  decide

theorem crcBit (din : Bool) : Statement (.crcBit din) := by
  unfold Statement
  cases din <;> decide

theorem build (id : Identifier) (dlc : Length) (data : Payload) : Statement (.build id dlc data) := by
  refine ⟨BitVec.and_allOnes, fun r hr => ?_⟩
  have hm : ∀ r ∈ opTable, cwOp r.mask = 7 ∧ (cwOp r.pattern = 3 → r = ⟨"BUILD", encodeN 3, encodeN 7⟩) := by decide
  have hn : ∀ r ∈ opTable, r.mnemonic = "BUILD" → r = ⟨"BUILD", encodeN 3, encodeN 7⟩ := by decide
  have hop : cwOp (encode (.build id dlc data)) = 3 := cwOp_encodeB 3 id dlc data
  constructor
  · intro h
    rw [(hm r hr).2 ((cwOp_of_selectsRow (hm r hr).1 h).symm.trans hop)]
    rfl
  · intro h
    rw [hn r hr h]
    have e := and_opMask (encode (.build id dlc data))
    rw [hop] at e
    exact beq_iff_eq.mpr e

theorem tickAuto : Statement .tickAuto := by
  unfold Statement
  decide

theorem tickMacc (thrIn : BitVec 7) : Statement (.tickMacc thrIn) := by
  unfold Statement
  revert thrIn
  decide +kernel

theorem tickMbrk : Statement .tickMbrk := by
  unfold Statement
  decide

theorem tickMcst : Statement .tickMcst := by
  unfold Statement
  decide

theorem rsvd5 : Statement .rsvd5 := by
  unfold Statement
  decide

theorem rsvd6 : Statement .rsvd6 := by
  unfold Statement
  decide

theorem rsvd7 : Statement .rsvd7 := by
  unfold Statement
  decide

end Laws.CanonicalWord

end Sys2Proof
end

