-- ==== Sys2Proof/Laws/Simulator.lean ====
section
/-!
SUPPORT. The number primitives, the narrowing of a law's values, and the scheduler's parts: the bounds proofs ask for.
-/

namespace Sys2Proof.Machine

/-! Number primitives (R10). -/

theorem decFloor_ge (v s f : Nat) : f ≤ decFloor v s f := by
  simp only [decFloor]
  split <;> omega

theorem decFloor_le {v s f m : Nat} (hv : v ≤ m) (hf : f ≤ m) : decFloor v s f ≤ m := by
  simp only [decFloor]
  split <;> omega

theorem clamp_ge {v lo hi : Nat} (h : lo ≤ hi) : lo ≤ clamp v lo hi := by
  simp only [clamp]
  split
  · omega
  · split <;> omega

theorem clamp_le {v lo hi : Nat} (h : lo ≤ hi) : clamp v lo hi ≤ hi := by
  simp only [clamp]
  split
  · omega
  · split <;> omega

theorem countedTicks_le (v : Vehicle) : countedTicks v ≤ 65535 := Nat.min_le_right _ _

theorem sampledThrottle_le (thrIn : BitVec 7) : sampledThrottle thrIn ≤ 100 := Nat.min_le_right _ _

/-- A value inside a width survives the narrowing (R165). -/
theorem toNat_ofNat_of_lt {w n : Nat} (h : n < 2 ^ w) : (BitVec.ofNat w n).toNat = n := by
  rw [BitVec.toNat_ofNat, Nat.mod_eq_of_lt h]

/-- An integer inside the signed byte survives the narrowing (R165). -/
theorem toInt_ofInt_of_mem {n : Int} (hlo : -128 ≤ n) (hhi : n ≤ 127) : (BitVec.ofInt 8 n).toInt = n := by
  rw [BitVec.toInt_ofInt]
  exact Int.bmod_eq_of_le (by norm_num; omega) (by norm_num; omega)

/-! The advance functions (R157, R160 to R164). -/

/-- The autonomous advance in the terms of the phase's law. -/
theorem advanceAuto_eq (c : Cfg) (v : Vehicle) :
    advanceAuto c v =
      if (phaseLaw c v).exit = true then narrow c v (phaseLaw c v) (nextPhase v.phase) 0
      else narrow c v (phaseLaw c v) v.phase (countedTicks v) := rfl

@[simp] theorem narrow_brake (c : Cfg) (v : Vehicle) (r : LawResult) (p : Phase) (t : Nat) :
    (narrow c v r p t).brake = r.brake := rfl
@[simp] theorem narrow_steer (c : Cfg) (v : Vehicle) (r : LawResult) (p : Phase) (t : Nat) :
    (narrow c v r p t).steer = v.steer := rfl
@[simp] theorem narrow_phase (c : Cfg) (v : Vehicle) (r : LawResult) (p : Phase) (t : Nat) :
    (narrow c v r p t).phase = p := rfl
@[simp] theorem narrow_coolant (c : Cfg) (v : Vehicle) (r : LawResult) (p : Phase) (t : Nat) :
    (narrow c v r p t).coolant = BitVec.ofInt 8 (coolantLaw c v.coolant.toInt) := rfl

/-- The coolant stays between where it was and the ceiling (R158). -/
theorem coolantLaw_mem {c : Cfg} {x : Int} (h : x ≤ c.coolantCeiling) : x ≤ coolantLaw c x ∧ coolantLaw c x ≤ c.coolantCeiling := by
  simp only [coolantLaw]
  split <;> omega

/-! The scheduler (R191 to R193). -/

theorem kindAt_of_lt {c : Cfg} {idx : BitVec 3} (h : idx.toNat < c.kinds.length) : kindAt c idx = c.kinds[idx.toNat] := by
  simp [kindAt, h]

/-- The next index, and that three bits hold it (R193). -/
theorem rotate_toNat {c : Cfg} (h1 : 1 ≤ c.kinds.length) (h8 : c.kinds.length ≤ 8) (idx : BitVec 3) :
    (rotate c idx).toNat = (idx.toNat + 1) % c.kinds.length := by
  have := Nat.mod_lt (idx.toNat + 1) h1
  rw [rotate, toNat_ofNat_of_lt (by omega)]

/-- Every kind's length is one or two bytes (R192). -/
theorem encodeSignal_dlc (c : Cfg) (k : Kind) (v : Vehicle) :
    (encodeSignal c k v).dlc = 1 ∨ (encodeSignal c k v).dlc = 2 := by
  cases k <;> simp [encodeSignal]

end Sys2Proof.Machine
end

