-- ==== Sys2Proof/Tests/Slice0.lean ====
section
/-!
SUPPORT. Tests. Expected results come from `spec/95_test_vectors.md` (its sections are named) or from the rule named; none
was read off the model. After them, one witness theorem for each obligation that has hypotheses: concrete states and
operands that meet them, at the ends of the ranges its clauses speak of.
-/

namespace Sys2Proof.Machine.Tests

/-! ### Helpers -/

/-- The machine as elaborated with `CFG_REF`, right after reset, the host's next port values given. -/
def atReset (script : List Pins) : State := State.ofReset Config.reference script 0

/-- Right after reset, the host drives the canonical word of `i` and then NOPs. -/
def accepting (i : Instr) : State := atReset (⟨false, encode i⟩ :: List.replicate 80 ⟨false, 0⟩)

/-- A run with `n` bits of the fixture (0x0C0, 2, [03 E8]) to go, the host driving NOP. -/
def running (n : BitVec 7) (hold : FrameImage) : State :=
  { atReset [⟨false, 0⟩] with busy := true, cnt := n, hold := hold }

/-- The fixture's last edge: the LFSR holds the checksum of (0x0C0, 2, [03 E8]), 0x1B04 (section 1). -/
def latching : State := { running 0 0x0C0203E8000000000000 with crc := 0x1B04 }

/-- A vehicle as section 7 writes it: coolant 20, steer 0. -/
def vehicle (phase : Phase) (ticks : BitVec 16) (rpm : BitVec 16) (speed : BitVec 8) (throttle : BitVec 7)
    (brake : Bool) : Vehicle := ⟨rpm, speed, throttle, brake, 20, 0, phase, ticks⟩

/-- A state with that vehicle. -/
def driving (v : Vehicle) : State := { atReset [] with veh := v }

/-- The outcome is a next state that passes the check. -/
def nextWith (check : State → Bool) : Host.Outcome State Fault Refusal → Bool
  | .next s => check s
  | .fault _ => false
  | .refused _ => false

theorem nextWith_next {o : Host.Outcome State Fault Refusal} {check : State → Bool} (h : nextWith check o = true) :
    ∃ t, o = .next t := by
  cases o with
  | next t => exact ⟨t, rfl⟩
  | fault _ => cases h
  | refused _ => cases h

theorem accepts_intro {i : Instr} {s : State}
    (h : (s.cfg.valid && !(pins s).rst && !s.busy && decide (decode (pins s).cw = i)) = true) : Accepts i s := by
  simp only [Bool.and_eq_true, Bool.not_eq_true', decide_eq_true_eq] at h
  exact ⟨h.1.1.1, h.1.1.2, h.1.2, h.2⟩

theorem noReset_intro {n : Nat} {s : State} (h : (List.range n).all (fun j => !(pinsAt s j).rst) = true) :
    NoResetFor n s := by
  intro j hj
  have := List.all_eq_true.mp h j (List.mem_range.mpr hj)
  simpa using this

/-! ### WellFormed: the reference configuration passes (R8); one ill-formed configuration per check of R7 is refused -/

theorem test_wf_reference : Config.reference.valid = true := by decide

/-- `CFG_REF` with one field broken, in the order of `Cfg.constraints`; the name says which check refuses it. -/
def illFormed : List Cfg :=
  [ { Config.reference with idleDwellTicks := 65535 },
    { Config.reference with accelTargetSpeed := 201 },
    { Config.reference with accelThrottleStep := 101 },
    { Config.reference with cruiseDwellTicks := 65535 },
    { Config.reference with cruiseThrottle := 101 },
    { Config.reference with brakeRpmStep := 65536 },
    { Config.reference with brakeSpeedStep := 0 },
    { Config.reference with brakeSpeedStep := 256 },
    { Config.reference with coolantCeiling := 19 },
    { Config.reference with coolantCeiling := 128 },
    { Config.reference with idleRpm := 2351, cruiseRpm := 2351, rpmMax := 2350 },
    { Config.reference with rpmBase := 65536 },
    { Config.reference with rpmGain := 65536 },
    { Config.reference with rpmMax := 65536 },
    { Config.reference with accelThrottleCap := 101 },
    { Config.reference with accelSpeedStep := 0 },
    { Config.reference with accelSpeedStep := 256 },
    { Config.reference with cruiseRpm := 849 },
    { Config.reference with cruiseRpm := 6501 },
    { Config.reference with coolantInit := -129 },
    { Config.reference with coolantStep := 0 },
    { Config.reference with coolantStep := 256 },
    { Config.reference with speedMax := 256 },
    { Config.reference with coastRpmStep := 65536 },
    { Config.reference with coastSpeedStep := 256 },
    { Config.reference with steerInit := -129 },
    { Config.reference with steerInit := 128 },
    { Config.reference with kinds := [] },
    { Config.reference with kinds := List.replicate 9 .rpm },
    { Config.reference with idRpm := 0x0C1 },
    { Config.reference with idSpeed := 0x800 },
    { Config.reference with idThrbrk := 0x800 },
    { Config.reference with idCoolant := 0x800 },
    { Config.reference with idSteer := 0x800 } ]

/-- Entry `k` of the list is refused, and by check `k` of the table. -/
theorem test_wf_each_check_refuses :
    illFormed.length = Config.reference.constraints.length ∧
    ∀ k < 34, (illFormed[k]?.map fun c => (c.valid, c.constraints[k]?)) = some (false, some false) := by decide

theorem test_wf_bounds_accepted :
    ({ Config.reference with
        idleDwellTicks := 65534, cruiseDwellTicks := 65534, accelTargetSpeed := 255, speedMax := 255, rpmMax := 65535,
        brakeSpeedStep := 255, accelSpeedStep := 1, coolantInit := -128, coolantCeiling := 127, steerInit := -128,
        kinds := List.replicate 8 .rpm, idSteer := 0x7FF } : Cfg).valid = true := by decide

theorem test_wf_operands : ∀ i ∈ [Instr.nop, .crcClr, .crcBit true, .build 0x7FF 15 0, .tickAuto, .tickMacc 127, .tickMbrk,
    .tickMcst, .rsvd5, .rsvd6, .rsvd7], i.wf = true := by decide

/-- R274: a length above 8 breaks the host's contract; the command is well-formed all the same (R87 (c)). -/
theorem test_contract : (Instr.build 0 8 0).keepsContract = true ∧ (Instr.build 0 9 0).keepsContract = false := by decide

/-! ### Decode: words written out field by field from the formats (R81 to R84), then the rows of section 6 -/

theorem test_decode_nop : decode (0b000#3 ++ 0#79) = .nop := by decide +kernel
theorem test_decode_crcClr : decode (0b001#3 ++ 0#79) = .crcClr := by decide +kernel
theorem test_decode_crcBit : decode (0b010#3 ++ 0#78 ++ 0b1#1) = .crcBit true := by decide +kernel
theorem test_decode_build :
    decode (0b011#3 ++ 0b00011000000#11 ++ 0b0010#4 ++
      (0x03#8 ++ 0xE8#8 ++ 0x00#8 ++ 0x00#8 ++ 0x00#8 ++ 0x00#8 ++ 0x00#8 ++ 0x00#8)) =
      .build 0x0C0 2 0x03E8000000000000 := by decide +kernel
theorem test_decode_tickAuto : decode (0b100#3 ++ 0#69 ++ 0b0#1 ++ 0b1#1 ++ 0b1#1 ++ 0b1111111#7) = .tickAuto := by decide +kernel
theorem test_decode_tickMacc :
    decode (0b100#3 ++ 0#69 ++ 0b1#1 ++ 0b1#1 ++ 0b0#1 ++ 0b0110010#7) = .tickMacc 50 := by decide +kernel
theorem test_decode_tickMbrk : decode (0b100#3 ++ 0#69 ++ 0b1#1 ++ 0b1#1 ++ 0b1#1 ++ 0b0000101#7) = .tickMbrk := by decide +kernel
theorem test_decode_tickMcst : decode (0b100#3 ++ 0#69 ++ 0b1#1 ++ 0b0#1 ++ 0b0#1 ++ 0b1100011#7) = .tickMcst := by decide +kernel
theorem test_decode_rsvd5 : decode (0b101#3 ++ 0#79) = .rsvd5 := by decide +kernel
theorem test_decode_rsvd6 : decode (0b110#3 ++ 0#79) = .rsvd6 := by decide +kernel
theorem test_decode_rsvd7 : decode (0b111#3 ++ 0#79) = .rsvd7 := by decide +kernel

/-- Section 6, every row. -/
def decodeRows : List (CommandWord × Instr) :=
  [ (0x000000000000000000000, .nop), (0x07FFFFFFFFFFFFFFFFFFF, .nop),
    (0x080000000000000000000, .crcClr), (0x0FFFFFFFFFFFFFFFFFFFF, .crcClr),
    (0x100000000000000000001, .crcBit true), (0x17FFFFFFFFFFFFFFFFFFE, .crcBit false),
    (0x18C0203E8000000000000, .build 0x0C0 2 0x03E8000000000000),
    (0x1FFFF1122334455667788, .build 0x7FF 15 0x1122334455667788),
    (0x200000000000000000000, .tickAuto), (0x200000000000000000100, .tickAuto),
    (0x2000000000000000000FF, .tickAuto), (0x27FFFFFFFFFFFFFFFFDFF, .tickAuto),
    (0x200000000000000000332, .tickMacc 50), (0x20000000000000000037F, .tickMacc 127),
    (0x200000000000000000300, .tickMacc 0),
    (0x200000000000000000280, .tickMbrk), (0x200000000000000000380, .tickMbrk), (0x200000000000000000385, .tickMbrk),
    (0x200000000000000000200, .tickMcst), (0x200000000000000000263, .tickMcst),
    (0x280000000000000000000, .rsvd5), (0x300000000000000000000, .rsvd6), (0x380000000000000000000, .rsvd7),
    (0x3FFFFFFFFFFFFFFFFFFFF, .rsvd7) ]

theorem test_decode_section6 : (decodeRows.all fun r => decode r.1 == r.2) = true := by decide

/-- R80: there is no word longer than 82 bits. -/
theorem test_decode_wider_refused : decodeWord (2 ^ 82) = .error .widerThanCommandWord := by decide +kernel

theorem test_decode_table_word : decodeTableWord 88 0x18C0203E8000000000000 = some (.build 0x0C0 2 0x03E8000000000000) := by
  decide +kernel

/-! ### One step per instruction (sections 1, 2, 3, 5 and 7) -/

theorem test_nop_drops_pulses :
    nextWith (fun t => decide (t = { latching with busy := false, fValid := false, errLen := false }))
      (exec .nop { latching with busy := false, fValid := true, errLen := true }) = true := by decide +kernel

/-- R216: a reserved code is a NOP. -/
theorem test_rsvd_as_nop :
    exec .rsvd5 latching = exec .nop latching ∧ exec .rsvd6 latching = exec .nop latching ∧
    exec .rsvd7 latching = exec .nop latching := ⟨rfl, rfl, rfl⟩

/-- Section 5.3, first row. -/
theorem test_crcClr : nextWith (fun t => decide (t.crc = 0 ∧ t.hold = latching.hold)) (exec .crcClr latching) = true := by
  decide +kernel

/-- Section 3, every row. -/
def crcStepRows : List (Crc × Bool × Crc) :=
  [ (0x0000, false, 0x0000), (0x0000, true, 0x4599), (0x4000, false, 0x4599), (0x4000, true, 0x0000),
    (0x7FFF, false, 0x3A67), (0x7FFF, true, 0x7FFE), (0x3FFF, false, 0x7FFE), (0x3FFF, true, 0x3A67),
    (0x4599, false, 0x4EAB), (0x4599, true, 0x0B32), (0x1234, false, 0x2468), (0x1234, true, 0x61F1),
    (0x2ACC, true, 0x1001), (0x7502, true, 0x6A04), (0x6A04, false, 0x1191) ]

theorem test_crc_step : (crcStepRows.all fun r => crcStep r.1 r.2.1 == r.2.2) = true := by decide

/-- Section 5.3: CRC_BIT 1 goes on from a checksum that a run left. -/
theorem test_crcBit :
    nextWith (fun t => decide (t.crc = 0x6A04)) (exec (.crcBit true) { latching with crc := 0x7502 }) = true := by decide +kernel

/-- Sections 1, 2 and 4: the pinned fixture, the end-to-end scenario, the longest stream, the shortest. -/
theorem test_computeCrc15 :
    computeCrc15 0x0C0 2 0x03E8000000000000 = 0x1B04 ∧ computeCrc15 0x0C0 2 0x0352000000000000 = 0x7502 ∧
    computeCrc15 0x123 8 0x0102030405060708 = 0x0C87 ∧ computeCrc15 0x7FF 0 0 = 0x4FFC := by decide +kernel

/-- Section 5.1, "junk beyond byte 0": the accept edge masks the payload. -/
theorem test_build_accept :
    nextWith (fun t => decide (t.hold = 0x0D016400000000000000 ∧ t.cnt = 23 ∧ t.busy = true))
      (exec (decode 0x18D0164FFFFFFFFFFFFFF) latching) = true := by decide +kernel

/-- Section 5.2: a length of 9 raises InvalidLength and touches nothing but the three flags. -/
theorem test_build_invalid :
    nextWith (fun t => decide (t = { atReset [] with errLen := true, errSticky := true }))
      (exec (decode 0x1FFF91122334455667788) { atReset [] with fValid := true }) = true := by decide +kernel

/-- A tick's vehicle: phase, ticks, rpm, speed, throttle, brake, coolant. -/
def ticked (i : Instr) (v : Vehicle) (phase : Phase) (ticks rpm speed throttle : Nat) (brake : Bool) : Bool :=
  nextWith (fun t => decide (t.veh.phase = phase ∧ t.veh.ticks.toNat = ticks ∧ t.veh.rpm.toNat = rpm ∧
    t.veh.speed.toNat = speed ∧ t.veh.throttle.toNat = throttle ∧ t.veh.brake = brake ∧ t.veh.coolant.toInt = 21))
    (exec i (driving v))

/-- Sections 7.1 to 7.4: one row on each side of each phase's exit. -/
theorem test_tickAuto :
    ticked .tickAuto (vehicle .idle 4 1234 0 55 false) .idle 5 850 0 0 true = true ∧
    ticked .tickAuto (vehicle .idle 5 850 0 0 true) .accelerate 0 850 0 0 true = true ∧
    ticked .tickAuto (vehicle .accelerate 3 850 40 75 false) .accelerate 4 4850 45 80 false = true ∧
    ticked .tickAuto (vehicle .accelerate 3 850 98 80 false) .cruise 0 4850 100 80 false = true ∧
    ticked .tickAuto (vehicle .cruise 9 4850 100 80 false) .cruise 10 2350 100 30 false = true ∧
    ticked .tickAuto (vehicle .cruise 10 4850 100 80 false) .brake 0 2350 100 30 false = true ∧
    ticked .tickAuto (vehicle .brake 2 1149 60 30 false) .brake 3 850 50 0 true = true ∧
    ticked .tickAuto (vehicle .brake 2 1000 7 30 false) .idle 0 850 0 0 true = true := by decide +kernel

/-- Section 2, edge 2: the frame is encoded from the new vehicle, the index rotates, the run starts. -/
theorem test_tickAuto_frame :
    nextWith (fun t => decide (t.hold = 0x0C020352000000000000 ∧ t.cnt = 31 ∧ t.crc = 0 ∧ t.busy = true ∧ t.idx = 1))
      (step (atReset [⟨false, 0x200000000000000000000⟩])) = true := by decide +kernel

/-- Section 7.6: below, at and above the clamp to 100, and at `SPEED_MAX`. -/
theorem test_tickMacc :
    ticked (.tickMacc 19) (vehicle .cruise 7 2350 0 30 false) .brake 0 1800 0 19 false = true ∧
    ticked (.tickMacc 127) (vehicle .cruise 7 2350 10 30 false) .brake 0 5850 15 100 false = true ∧
    ticked (.tickMacc 100) (vehicle .cruise 7 2350 198 30 false) .brake 0 5850 200 100 false = true := by decide +kernel

/-- Section 7.6. -/
theorem test_tickMbrk :
    ticked .tickMbrk (vehicle .accelerate 4 3350 2 40 false) .brake 0 3050 0 0 true = true ∧
    ticked .tickMbrk (vehicle .accelerate 4 900 25 40 false) .brake 0 850 15 0 true = true := by decide +kernel

/-- Section 7.6. -/
theorem test_tickMcst :
    ticked .tickMcst (vehicle .idle 4 2350 100 40 true) .brake 0 2250 98 0 false = true ∧
    ticked .tickMcst (vehicle .idle 4 949 3 40 true) .brake 0 850 1 0 false = true := by decide +kernel

/-! ### Edges that are no command (sections 1 and 2) -/

/-- Section 1, k = 30: the last shift edge of the fixture. -/
theorem test_shift_edge :
    nextWith (fun t => decide (t.crc = 0x1B04 ∧ t.cnt = 0 ∧ t.busy = true))
      (step { running 1 0x0C0203E8000000000000 with crc := 0x0D82 }) = true := by decide +kernel

/-- Section 2, edge 34 with the fixture's values. -/
theorem test_latch_edge :
    nextWith (fun t => decide (t.frame = ⟨0x0C0, 2, 0x03E8000000000000, 0x1B04⟩ ∧ t.fValid = true ∧ t.busy = false))
      (step latching) = true := by decide +kernel

/-- R235: `rst` wins over a run in progress. -/
theorem test_reset_edge :
    nextWith (fun t => decide (t = { atReset [] with edge := 1 })) (step { latching with script := [⟨true, 0⟩] }) = true := by
  decide +kernel

theorem test_placed_word_runs :
    nextWith (fun t => decide (t.crc = 0x4599)) (step (State.reset.withFetchWord 88 0x100000000000000000001)) = true := by
  decide +kernel

/-! ### Witnesses for the obligations with hypotheses -/

theorem test_witness_BrakeWinsInFormatT :
    let w : CommandWord := 0x200000000000000000380
    let v : CommandWord := 0x2000000000000000001FF
    (w.extractLsb' 79 3 = 4 ∧ w.getLsbD 9 = true ∧ w.getLsbD 8 = true ∧ w.getLsbD 7 = true) ∧
    v.extractLsb' 79 3 = 4 ∧ v.getLsbD 9 = false := by decide +kernel

theorem test_witness_StepRunsDecodedCommand : Accepts .tickAuto (accepting .tickAuto) := accepts_intro (by decide +kernel)

theorem test_witness_PlacedWordIsRun :
    latching.cfg.valid = true ∧ decodeTableWord 88 0x200000000000000000332 = some (.tickMacc 50) := by decide +kernel

theorem test_witness_StepIsTotal : (running 79 0).cfg.valid = true ∧ (running 79 0).cnt.toNat ≤ 79 := by decide +kernel

/-- A latch edge and a BUILD that raises InvalidLength, the two that set a pulse. -/
theorem test_witness_PulseFlagsMark :
    ((∃ t, step latching = .next t) ∧ AtLatchEdge latching) ∧
    (∃ t, step (accepting (.build 0 9 0)) = .next t) ∧ AcceptsBadBuild (accepting (.build 0 9 0)) :=
  ⟨⟨nextWith_next (check := fun _ => true) (by decide +kernel), by unfold AtLatchEdge; decide +kernel⟩,
    nextWith_next (check := fun _ => true) (by decide +kernel), 0, 9, 0, accepts_intro (by decide +kernel), by decide +kernel⟩

theorem test_witness_StickyFlagRecords : ∃ t, step (accepting (.build 0 15 0)) = .next t :=
  nextWith_next (check := fun _ => true) (by decide +kernel)

theorem test_witness_ResetEdgeValues :
    ({ latching with script := [⟨true, 0x3FFFFFFFFFFFFFFFFFFFF⟩] } : State).cfg.valid = true ∧
    (pins { latching with script := [⟨true, 0x3FFFFFFFFFFFFFFFFFFFF⟩] }).rst = true := by decide +kernel

/-- The first bit of the longest stream, the last bit of the longest, the first of the shortest. -/
theorem test_witness_ShiftEdgeEffect :
    ([(running 79 0x7FF8FFFFFFFFFFFFFFFF, 78), (running 1 0x7FF8FFFFFFFFFFFFFFFF, 0), (running 15 0, 78)].all fun p =>
      p.1.cfg.valid && !(pins p.1).rst && p.1.busy && p.1.cnt != 0 && decide (p.1.cnt.toNat ≤ 79) && decide (p.2 ≤ 78) &&
      decide (p.2 + (15 + 8 * (p.1.hold.extractLsb' 64 4).toNat) = 78 + p.1.cnt.toNat)) = true := by decide +kernel

theorem test_witness_CountAbove79Stops :
    (running 80 0).cfg.valid = true ∧ (pins (running 80 0)).rst = false ∧ (running 80 0).busy = true ∧
    79 < (running 80 0).cnt.toNat := by decide +kernel

theorem test_witness_LatchEdgeEffect :
    latching.cfg.valid = true ∧ (pins latching).rst = false ∧ latching.busy = true ∧ latching.cnt = 0 := by decide +kernel

theorem test_witness_CommandsDuringRunDropped : latching.busy = true ∧ (running 31 0).busy = true := by decide +kernel

theorem test_witness_BadConfigurationRefused :
    (State.ofReset { Config.reference with kinds := [] } [] 0).cfg.valid = false := by decide +kernel

/-- An edge for each column of the table. -/
def tableEdges : List State :=
  [ accepting .tickAuto, accepting (.build 0x0C0 8 0), accepting (.build 0 9 0), accepting .crcClr,
    accepting (.crcBit true), accepting .nop, latching, running 31 0x0C0203E8000000000000 ]

theorem test_witness_OnlyTheTableWrites : ∀ s ∈ tableEdges, (∃ t, step s = .next t) ∧ (pins s).rst = false := by
  intro s hs
  have h : (tableEdges.all fun s => nextWith (fun _ => true) (step s) && !(pins s).rst) = true := by decide +kernel
  have h := List.all_eq_true.mp h s hs
  simp only [Bool.and_eq_true, Bool.not_eq_true'] at h
  exact ⟨nextWith_next h.1, h.2⟩

/-- The ends of every range: lengths 0 and 8, identifier bits 0 and 10, length bits 11 and 14, byte 7. -/
theorem test_witness_StreamOrder :
    (0 : Length).toNat ≤ 8 ∧ (8 : Length).toNat ≤ 8 ∧ (0 ≤ 10 ∧ 10 ≤ 10) ∧ (11 ≤ 11 ∧ 11 ≤ 14) ∧ (11 ≤ 14 ∧ 14 ≤ 14) ∧
    (7 : Fin 8).val < (8 : Length).toNat ∧ (0 : Fin 8).val < (1 : Length).toNat := by decide +kernel

/-- A byte below the length, the first byte at it, and the full length. -/
theorem test_witness_MaskPayloadBytes :
    (1 : Length).toNat ≤ 8 ∧ (0 : Fin 8).val < (1 : Length).toNat ∧ ¬ (1 : Fin 8).val < (1 : Length).toNat ∧
    (8 : Length).toNat ≤ 8 ∧ (7 : Fin 8).val < (8 : Length).toNat := by decide +kernel

/-- Two payloads that differ only beyond the length. -/
theorem test_witness_ChecksumIgnoresTail :
    (2 : Length).toNat ≤ 8 ∧ (0x03E8000000000000 : Payload) ≠ 0x03E80000000000FF ∧
    ∀ i : Fin 8, i.val < (2 : Length).toNat →
      payloadByte 0x03E8000000000000 i = payloadByte 0x03E80000000000FF i := by decide +kernel

theorem test_witness_ChecksumLinear : (0 : Length).toNat ≤ 8 ∧ (8 : Length).toNat ≤ 8 := by decide +kernel

theorem test_witness_BitSerialRouteComputesChecksum :
    let s := atReset (scriptOf ((crc15 0x0C0 2 0x03E8000000000000).map .op))
    (2 : Length).toNat ≤ 8 ∧ s.cfg.valid = true ∧ s.busy = false ∧
    s.script = scriptOf ((crc15 0x0C0 2 0x03E8000000000000).map .op) ++ [] := by decide +kernel

theorem test_witness_BuildMakesFrame : 8 < (9 : Length).toNat ∧ 8 < (15 : Length).toNat ∧ (8 : Length).toNat ≤ 8 := by decide +kernel

theorem test_witness_BuildStartsRun : (0 : Length).toNat ≤ 8 ∧ (8 : Length).toNat ≤ 8 := by decide +kernel

theorem test_witness_BadBuildRaisesInvalidLength : 8 < (9 : Length).toNat ∧ 8 < (15 : Length).toNat := by decide +kernel

theorem test_witness_BuildAsOneTransition :
    (8 : Length).toNat ≤ 8 ∧ Accepts (.build 0x123 8 0x0102030405060708) (accepting (.build 0x123 8 0x0102030405060708)) ∧
    NoResetFor (17 + 8 * (8 : Length).toNat) (accepting (.build 0x123 8 0x0102030405060708)) :=
  ⟨by decide +kernel, accepts_intro (by decide +kernel), noReset_intro (by decide +kernel)⟩

/-- Each of the four forms with its own advance; the last clause's valid configuration. -/
theorem test_witness_TickAcceptEdge :
    ((Instr.tickAuto, advanceAuto) ∈ [(.tickAuto, advanceAuto), (.tickMbrk, advanceMbrk), (.tickMcst, advanceMcst)] ∧
      (Instr.tickMbrk, advanceMbrk) ∈ [(.tickAuto, advanceAuto), (.tickMbrk, advanceMbrk), (.tickMcst, advanceMcst)] ∧
      (Instr.tickMcst, advanceMcst) ∈ [(.tickAuto, advanceAuto), (.tickMbrk, advanceMbrk), (.tickMcst, advanceMcst)]) ∧
    (∃ thrIn, Instr.tickMacc 127 = .tickMacc thrIn ∧ advanceMacc 127 = advanceMacc thrIn) ∧
    State.reset.cfg.valid = true :=
  ⟨⟨by simp, by simp, by simp⟩, ⟨127, rfl, rfl⟩, test_wf_reference⟩

/-- Both sides of the exit: the counted ticks 5 and 6 against a dwell of 5. -/
theorem test_witness_IdleLaw :
    ∀ ticks ∈ [(4 : BitVec 16), 5],
      (driving (vehicle .idle ticks 850 0 0 true)).cfg.valid = true ∧
      (driving (vehicle .idle ticks 850 0 0 true)).veh.phase = .idle := fun _ _ => ⟨test_wf_reference, rfl⟩

/-- Below, just below and at the target speed. -/
theorem test_witness_AccelerateLaw :
    ∀ speed ∈ [(0 : BitVec 8), 94, 95, 100],
      (driving (vehicle .accelerate 3 850 speed 80 false)).cfg.valid = true ∧
      (driving (vehicle .accelerate 3 850 speed 80 false)).veh.phase = .accelerate := fun _ _ => ⟨test_wf_reference, rfl⟩

/-- Both sides of the exit: the counted ticks 10 and 11 against a dwell of 10. -/
theorem test_witness_CruiseLaw :
    ∀ ticks ∈ [(9 : BitVec 16), 10],
      (driving (vehicle .cruise ticks 4850 100 80 false)).cfg.valid = true ∧
      (driving (vehicle .cruise ticks 4850 100 80 false)).veh.phase = .cruise := fun _ _ => ⟨test_wf_reference, rfl⟩

/-- Both sides of standstill, and both sides of the rpm floor. -/
theorem test_witness_BrakeLaw :
    ∀ p ∈ [((1150 : BitVec 16), (11 : BitVec 8)), (1149, 10)],
      (driving (vehicle .brake 2 p.1 p.2 30 false)).cfg.valid = true ∧
      (driving (vehicle .brake 2 p.1 p.2 30 false)).veh.phase = .brake := fun _ _ => ⟨test_wf_reference, rfl⟩

theorem test_witness_ManualAccelerateLaw : (driving (vehicle .cruise 7 2350 198 30 false)).cfg.valid = true := test_wf_reference

theorem test_witness_ManualBrakeLaw : (driving (vehicle .accelerate 4 1150 10 40 false)).cfg.valid = true := test_wf_reference

theorem test_witness_ManualCoastLaw : (driving (vehicle .idle 4 950 2 40 true)).cfg.valid = true := test_wf_reference

/-- Below the ceiling, at it and (in a state no run reaches) above it. -/
theorem test_witness_CoolantAndSteeringLaw :
    (∀ i ∈ [Instr.tickAuto, .tickMacc 0, .tickMbrk, .tickMcst], isTick i = true) ∧
    ∀ coolant ∈ [(89 : BitVec 8), 90, 91], (driving ⟨850, 0, 0, true, coolant, 0, .idle, 0⟩).cfg.valid = true :=
  ⟨by decide, fun _ _ => test_wf_reference⟩

theorem test_witness_SampledThrottleClamped : 100 ≤ (100 : BitVec 7).toNat ∧ 100 ≤ (127 : BitVec 7).toNat := by decide +kernel

/-- A vehicle in its domain: Brake at speed 90, coolant at its ceiling. -/
theorem vehicleInDomain_braking :
    VehicleInDomain { accepting .tickMcst with veh := ⟨2050, 90, 0, true, 90, 0, .brake, 1⟩ } := by
  constructor <;> decide +kernel

theorem test_witness_VehicleDomainsKept :
    let s := { accepting .tickMcst with veh := ⟨2050, 90, 0, true, 90, 0, .brake, 1⟩ }
    VehicleInDomain s ∧ (∃ t, step s = .next t) ∧ (pins s).rst = false :=
  ⟨vehicleInDomain_braking, nextWith_next (check := fun _ => true) (by decide +kernel), by decide +kernel⟩

theorem test_witness_SpeedRisesOnlyAccelerating :
    let s := { accepting .tickAuto with veh := vehicle .accelerate 3 850 40 75 false }
    ∃ t, step s = .next t ∧ s.veh.speed.toNat < t.veh.speed.toNat := by
  refine ⟨_, rfl, ?_⟩
  decide +kernel

theorem test_witness_DriveCycleIsPeriodic :
    State.reset.cfg.valid = true ∧ State.reset.veh.phase = .idle ∧ State.reset.veh.speed = 0 ∧ State.reset.veh.ticks = 0 := by
  decide +kernel

/-- R167 (c): the cycle of `CFG_REF` is 6 + 20 + 11 + 10 = 47 ticks. -/
theorem test_cycle_of_reference : cycleTicks Config.reference = 47 := by decide +kernel

theorem test_witness_SignalEncoders :
    Config.reference.valid = true ∧
    ∀ k, (encodeSignal Config.reference k State.reset.veh).dlc.toNat ≤ (7 : Fin 8).val := by
  refine ⟨by decide +kernel, fun k => ?_⟩
  cases k <;> decide +kernel

theorem test_witness_RotationIsRoundRobin :
    State.reset.cfg.valid = true ∧ State.reset.idx = 0 ∧ isTick .tickMbrk = true := by decide +kernel

/-- Right after reset but for the index, the host drives TICK.AUTO and then NOPs. -/
def ticking (idx : BitVec 3) : State := { accepting .tickAuto with idx := idx }

/-- One accepted tick for each of the five kinds, run to its end. -/
theorem test_witness_PayloadRoundTrip :
    ∀ idx ∈ [(0 : BitVec 3), 1, 2, 3, 4],
      Accepts .tickAuto (ticking idx) ∧ isTick .tickAuto = true ∧
      NoResetFor (completionEdges .tickAuto (ticking idx)) (ticking idx) ∧
      ∃ t, runEdges (completionEdges .tickAuto (ticking idx)) (ticking idx) = .next t := by
  intro idx hidx
  have h : ([(0 : BitVec 3), 1, 2, 3, 4].all fun idx =>
      (List.range (completionEdges .tickAuto (ticking idx))).all (fun j => !(pinsAt (ticking idx) j).rst) &&
      nextWith (fun _ => true) (runEdges (completionEdges .tickAuto (ticking idx)) (ticking idx))) = true := by
    decide +kernel
  have h := List.all_eq_true.mp h idx hidx
  simp only [Bool.and_eq_true] at h
  have ha := test_witness_StepRunsDecodedCommand
  exact ⟨⟨ha.configured, ha.no_reset, ha.not_busy, ha.decoded⟩, rfl, noReset_intro h.1, nextWith_next h.2⟩

theorem test_witness_TickAsOneTransition :
    (∃ thrIn, Instr.tickMacc 50 = .tickMacc thrIn ∧ advanceMacc 50 = advanceMacc thrIn) ∧
    Accepts (.tickMacc 50) (accepting (.tickMacc 50)) ∧
    33 = 17 + 8 * (encodeSignal (accepting (.tickMacc 50)).cfg
      (kindAt (accepting (.tickMacc 50)).cfg (accepting (.tickMacc 50)).idx)
      (advanceMacc 50 (accepting (.tickMacc 50)).cfg (accepting (.tickMacc 50)).veh)).dlc.toNat ∧
    NoResetFor 33 (accepting (.tickMacc 50)) :=
  ⟨⟨50, rfl, rfl⟩, accepts_intro (by decide +kernel), by decide +kernel, noReset_intro (by decide +kernel)⟩

/-- The shortest operation and the longest. -/
theorem test_witness_CycleCounts :
    (Accepts .nop (accepting .nop) ∧ NoResetFor (completionEdges .nop (accepting .nop)) (accepting .nop)) ∧
    Accepts (.build 0x7FF 8 0) (accepting (.build 0x7FF 8 0)) ∧
    NoResetFor (completionEdges (.build 0x7FF 8 0) (accepting (.build 0x7FF 8 0))) (accepting (.build 0x7FF 8 0)) :=
  ⟨⟨accepts_intro (by decide +kernel), noReset_intro (by decide +kernel)⟩,
    accepts_intro (by decide +kernel), noReset_intro (by decide +kernel)⟩

theorem test_witness_OperationSequencesRefine :
    let ops := [Instr.tickAuto, .crcClr, .build 0x0C0 9 0]
    let s := atReset (scriptOf (operationLines ops State.reset))
    s.cfg.valid = true ∧ s.busy = false ∧ s.script = scriptOf (operationLines ops s) ++ [] := by decide +kernel

theorem test_witness_NopsChangeNothing :
    let s := { latching with busy := false, script := scriptOf (List.replicate 2 (.op .nop)) }
    1 ≤ 2 ∧ s.cfg.valid = true ∧ s.busy = false ∧ s.script = scriptOf (List.replicate 2 (.op .nop)) ++ [] := by decide +kernel

/-- A frame that `build` gives: the fixture. -/
theorem frameConsistent_fixture : FrameConsistent ⟨0x0C0, 2, 0x03E8000000000000, 0x1B04⟩ :=
  ⟨by decide +kernel, by decide +kernel, by decide +kernel⟩

/-- A run 14 bits in: the fixture after k = 13 (section 1). -/
theorem test_witness_ChecksumInvariantKept :
    let s := { running 17 0x0C0203E8000000000000 with crc := 0x567F, frame := ⟨0x0C0, 2, 0x03E8000000000000, 0x1B04⟩ }
    FrameConsistent s.frame ∧ RunConsistent s ∧ ∃ t, step s = .next t :=
  ⟨frameConsistent_fixture,
    ⟨by decide +kernel, by decide +kernel, by decide +kernel, by decide +kernel, by decide +kernel⟩,
    nextWith_next (check := fun _ => true) (by decide +kernel)⟩

theorem test_witness_IndexAndFlagsKept :
    let s := { accepting .tickAuto with idx := 4, errLen := true, errSticky := true }
    s.idx.toNat < s.cfg.kinds.length ∧ FlagsConsistent s ∧ ∃ t, step s = .next t :=
  ⟨by decide +kernel, ⟨by decide +kernel, by decide +kernel, by decide +kernel⟩, nextWith_next (check := fun _ => true) (by decide +kernel)⟩

theorem test_witness_ResetStateIsLegal : Config.reference.valid = true := by decide +kernel

/-- A legal state in the middle of a run, the previous frame still on the ports. -/
theorem test_witness_LegalStatesRunForever :
    Legal { running 17 0x0C0203E8000000000000 with
      crc := 0x567F, frame := ⟨0x0C0, 2, 0x03E8000000000000, 0x1B04⟩,
      veh := ⟨2050, 90, 0, true, 90, 0, .brake, 1⟩, idx := 4 } where
  configured := by decide +kernel
  vehicle := by constructor <;> decide +kernel
  index := by decide +kernel
  frame := frameConsistent_fixture
  run := ⟨by decide +kernel, by decide +kernel, by decide +kernel, by decide +kernel, by decide +kernel⟩
  flags := ⟨by decide +kernel, by decide +kernel, by decide +kernel⟩

/-- The longest `WAIT` and the shortest: all 79 bits to go, and the latch edge alone. -/
theorem test_witness_WaitLastsToTheEndOfTheRun :
    ((running 79 0x7FF8FFFFFFFFFFFFFFFF).cfg.valid = true ∧ (running 79 0x7FF8FFFFFFFFFFFFFFFF).busy = true ∧
      (running 79 0x7FF8FFFFFFFFFFFFFFFF).cnt.toNat ≤ 79) ∧
    latching.cfg.valid = true ∧ latching.busy = true ∧ latching.cnt.toNat ≤ 79 := by decide +kernel

/-- R98, R99, R265: `BUILDW` of a length 0 with 79 bits of another run to go is a dropped line and 79 NOPs; after reset it is
the accept edge and 16 NOPs (R270). -/
theorem test_withWait :
    withWait (.build 0 0 0) (running 79 0x7FF8FFFFFFFFFFFFFFFF) =
      .op (.build 0 0 0) :: List.replicate 79 (.op .nop) ∧
    withWait (.build 0 0 0) State.reset = .op (.build 0 0 0) :: List.replicate 16 (.op .nop) := by decide +kernel

end Sys2Proof.Machine.Tests
end

section
/-!
PROOFS. The configuration (`00_scope.md` R7): the constraint table as a proposition, and the refusal of a configuration
that breaks it.
-/

namespace Sys2Proof

/-- A configuration is valid when every entry of its constraint list checks. -/
theorem Cfg.valid_iff (c : Cfg) : c.valid = true ↔ ∀ b ∈ c.constraints, b = true := by
  rw [Cfg.valid, List.all_eq_true]

namespace Machine

/-- Settles O17. The list has an entry per bound, in the table's order; the table pairs the bounds of a two-sided row, so
the two sides differ only in how the conjunction associates. -/
theorem configurationTable : Obligations.ConfigurationTable := by
  intro c
  rw [Cfg.valid_iff]
  simp only [Cfg.constraints, List.forall_mem_cons, List.not_mem_nil, false_implies, implies_true, and_true,
    decide_eq_true_eq, and_assoc]

/-- Settles O16. The edge looks at the configuration before the ports (A6), so nothing else of the state is asked for. -/
theorem badConfigurationRefused : Obligations.BadConfigurationRefused := by
  intro s hinvalid
  have hnot : ¬ s.cfg.valid = true := Bool.eq_false_iff.mp hinvalid
  rw [step, clockEdge, if_neg hnot]

end Machine

end Sys2Proof
end

section
/-!
PROOFS. One edge, said once in the terms proofs ask for: which edge it is, the command it accepts, and the state it leaves
(`10_state.md` R48, `44_tick_and_control.md` R217).
-/

namespace Sys2Proof.Machine

/-- An edge with `rst` = 1 leaves the reset state, whatever else the state and the ports hold (R235, R260). -/
theorem step_of_rst {s : State} (hvalid : s.cfg.valid = true) (hrst : (pins s).rst = true) :
    step s = .next (resetEdge (passEdge s)) := by
  rw [step_eq hvalid, if_pos hrst]

/-! Which edge it is: the kinds of edge exclude one another (R217, R235). -/

/-- An edge accepts one command. -/
theorem Accepts.unique {i j : Instr} {s : State} (hi : Accepts i s) (hj : Accepts j s) : i = j :=
  hi.decoded.symm.trans hj.decoded

/-- An accept edge has no run in progress, so it is no latch edge. -/
theorem Accepts.not_atLatchEdge {i : Instr} {s : State} (h : Accepts i s) : ¬ AtLatchEdge s := by
  rintro ⟨-, hbusy, -⟩
  simp [h.not_busy] at hbusy

/-- A shift edge has bits to go, so it is no latch edge. -/
theorem AtShiftEdge.not_atLatchEdge {s : State} (h : AtShiftEdge s) : ¬ AtLatchEdge s := fun hl => h.2.2 hl.2.2

/-- `rst` wins over `busy` (R235). -/
theorem not_atLatchEdge_of_rst {s : State} (h : (pins s).rst = true) : ¬ AtLatchEdge s := by
  rintro ⟨hrst, -⟩
  simp [h] at hrst

/-- `rst` wins over the command word (R235). -/
theorem not_acceptsBadBuild_of_rst {s : State} (h : (pins s).rst = true) : ¬ AcceptsBadBuild s := by
  rintro ⟨_, _, _, hacc, -⟩
  exact absurd (h.symm.trans hacc.no_reset) (by decide)

/-- While a run is in progress no command is accepted (R265). -/
theorem not_acceptsBadBuild_of_busy {s : State} (h : s.busy = true) : ¬ AcceptsBadBuild s := by
  rintro ⟨_, _, _, hacc, -⟩
  exact absurd (h.symm.trans hacc.not_busy) (by decide)

/-- The accept edge that raises InvalidLength is the one whose command breaks the host's contract (R231, R274). -/
theorem Accepts.acceptsBadBuild_iff {i : Instr} {s : State} (h : Accepts i s) :
    AcceptsBadBuild s ↔ i.keepsContract = false := by
  constructor
  · rintro ⟨id, dlc, data, ha, hdlc⟩
    rw [h.unique ha]
    simpa [Instr.keepsContract] using hdlc
  · intro hi
    cases i with
    | build id dlc data => exact ⟨id, dlc, data, h, by simpa [Instr.keepsContract] using hi⟩
    | _ => cases hi

/-! The commands that advance the vehicle are the four TICK forms (R85). -/

theorem isTick_of_tickAdvance {i : Instr} {advance : Cfg → Vehicle → Vehicle} (h : tickAdvance i = some advance) :
    isTick i = true := by
  cases i with
  | tickAuto | tickMacc | tickMbrk | tickMcst => rfl
  | _ => cases h

theorem keepsContract_of_isTick {i : Instr} (h : isTick i = true) : i.keepsContract = true := by
  cases i with
  | build => cases h
  | _ => rfl

theorem keepsContract_of_mem_nops {i : Instr} (h : i ∈ [Instr.nop, .rsvd5, .rsvd6, .rsvd7]) : i.keepsContract = true := by
  cases i with
  | build => simp at h
  | _ => rfl

/-- Every form of tick holds the steering angle (R159). -/
theorem steer_of_tickAdvance {i : Instr} {advance : Cfg → Vehicle → Vehicle} (h : tickAdvance i = some advance)
    (c : Cfg) (v : Vehicle) : (advance c v).steer = v.steer := by
  cases i with
  | tickAuto =>
    cases h
    rw [advanceAuto_eq]
    split <;> rfl
  | tickMacc | tickMbrk | tickMcst =>
    cases h
    rfl
  | _ => cases h

/-! The edge's effect, by its kind. -/

/-- The state an edge of `s` leaves, one constructor per kind of edge: reset, latch, shift, and the accept edges by what
the command does. -/
inductive EdgeTo (s : State) : State → Prop where
  | reset (hrst : (pins s).rst = true) : EdgeTo s (resetEdge (passEdge s))
  | latch (hlatch : AtLatchEdge s) : EdgeTo s (latchEdge (passEdge s))
  | shift (hshift : AtShiftEdge s) :
      EdgeTo s { passEdge s with
        crc := crcStep s.crc (shiftBit s.hold s.cnt), cnt := s.cnt - 1, fValid := false, errLen := false }
  | nop {i : Instr} (hacc : Accepts i s) (hi : i ∈ [Instr.nop, .rsvd5, .rsvd6, .rsvd7]) :
      EdgeTo s (clearPulses (passEdge s))
  | crcClr (hacc : Accepts .crcClr s) : EdgeTo s { passEdge s with crc := 0, fValid := false, errLen := false }
  | crcBit {din : Bool} (hacc : Accepts (.crcBit din) s) :
      EdgeTo s { passEdge s with crc := crcStep s.crc din, fValid := false, errLen := false }
  | badBuild {id : Identifier} {dlc : Length} {data : Payload} (hacc : Accepts (.build id dlc data) s)
      (hdlc : 8 < dlc.toNat) : EdgeTo s (raiseInvalidLength (passEdge s))
  | build {id : Identifier} {dlc : Length} {data : Payload} (hacc : Accepts (.build id dlc data) s)
      (hdlc : dlc.toNat ≤ 8) : EdgeTo s (startRun id dlc (maskPayload dlc data) (passEdge s))
  | tick {i : Instr} {advance : Cfg → Vehicle → Vehicle} (hacc : Accepts i s) (hadv : tickAdvance i = some advance) :
      EdgeTo s (tick advance (passEdge s))

/-- A step that answers has one of these effects. -/
theorem step_edgeTo {s t : State} (h : step s = .next t) : EdgeTo s t := by
  obtain ⟨hvalid, ⟨hrst, rfl⟩ | ⟨hlatch, rfl⟩ | ⟨hshift, hnext⟩ | ⟨hrst, hbusy, hexec⟩⟩ := step_next_cases h
  · exact .reset hrst
  · exact .latch hlatch
  · obtain ⟨-, rfl⟩ := shiftEdge_next hnext
    exact .shift hshift
  · have hacc : Accepts (decode (pins s).cw) s := ⟨hvalid, hrst, hbusy, rfl⟩
    generalize decode (pins s).cw = i at hacc hexec
    obtain ⟨u, hu, hcases⟩ := exec_cases i (passEdge s)
    cases hu.symm.trans hexec
    obtain ⟨hi, rfl⟩ | ⟨rfl, rfl⟩ | ⟨din, rfl, rfl⟩ | ⟨id, dlc, data, rfl, hdlc, rfl⟩ | ⟨id, dlc, data, rfl, hdlc, rfl⟩ |
      ⟨advance, hadv, rfl⟩ := hcases
    · exact .nop hacc hi
    · exact .crcClr hacc
    · exact .crcBit hacc
    · exact .badBuild hacc hdlc
    · exact .build hacc hdlc
    · exact .tick hacc hadv

end Sys2Proof.Machine
end

section
/-!
PROOFS. The checksum invariant (`10_state.md` R28, R34, R35, `41_frame_model.md` R137): which payloads end in zero bytes,
which runs are consistent, and that every edge keeps both halves.
-/

namespace Sys2Proof.Machine

/-! Zero bytes beyond the length (R139, R192). -/

/-- The mask leaves zero bytes from the length on. -/
theorem payloadByte_maskPayload_tail {dlc : Length} (data : Payload) {i : Fin 8} (h : dlc.toNat ≤ i.val) :
    payloadByte (maskPayload dlc data) i = 0 := by
  apply BitVec.eq_of_getLsbD_eq
  intro j hj
  rw [payloadByte_getLsbD, maskPayload_getLsbD]
  simp [show ¬ 64 - 8 * dlc.toNat ≤ 56 - 8 * i.val + j by omega]

/-- A payload made of `n` high bits over zeros has zero bytes below them. -/
theorem payloadByte_append_zero {n m : Nat} (hnm : n + m = 64) (x : BitVec n) {i : Fin 8} (h : n ≤ 8 * i.val) :
    payloadByte ((x ++ (0 : BitVec m)).cast hnm) i = 0 := by
  apply BitVec.eq_of_getLsbD_eq
  intro j hj
  rw [payloadByte_getLsbD, BitVec.getLsbD_cast, BitVec.getLsbD_append]
  simp [show 56 - 8 * i.val + j < m by omega]

/-- Every encoder leaves zero bytes from its length on. -/
theorem payloadByte_encodeSignal_tail (c : Cfg) (k : Kind) (v : Vehicle) {i : Fin 8}
    (h : (encodeSignal c k v).dlc.toNat ≤ i.val) : payloadByte (encodeSignal c k v).data i = 0 := by
  cases k with
  | rpm | thrbrk =>
    have hi : 2 ≤ i.val := h
    exact payloadByte_append_zero (n := 16) (m := 48) rfl _ (by omega)
  | speed | coolant | steer =>
    have hi : 1 ≤ i.val := h
    exact payloadByte_append_zero (n := 8) (m := 56) rfl _ (by omega)

/-- Every encoder's length is one BUILD accepts. -/
theorem encodeSignal_dlc_le (c : Cfg) (k : Kind) (v : Vehicle) : (encodeSignal c k v).dlc.toNat ≤ 8 := by
  obtain h | h := encodeSignal_dlc c k v <;> simp [h]

/-! Runs (R34, R35, R131 to R133). -/

/-- Without a run in progress the counter alone is asked for. -/
theorem RunConsistent.of_not_busy {s : State} (hbusy : s.busy = false) (hcnt : s.cnt = 0) : RunConsistent s where
  not_busy _ := hcnt
  dlc_le h := by simp [hbusy] at h
  cnt_le h := by simp [hbusy] at h
  tail_zero h := by simp [hbusy] at h
  crc_eq h := by simp [hbusy] at h

/-- An accept edge starts a consistent run: no bit is consumed and the LFSR is clear. -/
theorem runConsistent_startRun {id : Identifier} {dlc : Length} {data : Payload} (s : State) (hdlc : dlc.toNat ≤ 8)
    (htail : ∀ i : Fin 8, dlc.toNat ≤ i.val → payloadByte data i = 0) : RunConsistent (startRun id dlc data s) where
  not_busy h := by simp at h
  dlc_le _ := by simpa using hdlc
  cnt_le _ := by simp only [startRun_cnt, startRun_hold, imageDlc_frameImage, streamLength_toNat hdlc, le_refl]
  tail_zero _ := by simpa using htail
  crc_eq _ := by
    simp only [startRun_cnt, startRun_hold, startRun_crc, imageDlc_frameImage, streamLength_toNat hdlc, Nat.sub_self]
    rfl

/-- A shift edge consumes the next stream bit: with `cnt` bits to go, `N - cnt` are in the LFSR, and one more is after it. -/
theorem RunConsistent.shift {s : State} (h : RunConsistent s) (hshift : AtShiftEdge s) :
    RunConsistent { passEdge s with
      crc := crcStep s.crc (shiftBit s.hold s.cnt), cnt := s.cnt - 1, fValid := false, errLen := false } := by
  obtain ⟨-, hbusy, hcnt⟩ := hshift
  have hle := h.cnt_le hbusy
  have hdlc := h.dlc_le hbusy
  have hpos : 1 ≤ s.cnt.toNat := by bv_omega
  have hpred : (s.cnt - 1).toNat = s.cnt.toNat - 1 := by bv_omega
  have hN : streamLength (imageDlc s.hold) ≤ 79 := by
    unfold streamLength
    omega
  refine ⟨fun hb => by simp [hbusy] at hb, fun _ => hdlc, fun _ => ?_, fun _ => h.tail_zero hbusy, fun _ => ?_⟩
  · change (s.cnt - 1).toNat ≤ streamLength (imageDlc s.hold)
    omega
  · change crcStep s.crc (shiftBit s.hold s.cnt) =
      crcSteps 0 (imageStream s.hold (streamLength (imageDlc s.hold) - (s.cnt - 1).toNat))
    rw [hpred, show streamLength (imageDlc s.hold) - (s.cnt.toNat - 1) =
        streamLength (imageDlc s.hold) - s.cnt.toNat + 1 by omega,
      crcSteps_imageStream_succ, ← h.crc_eq hbusy,
      shiftBit_eq (j := streamLength (imageDlc s.hold) - s.cnt.toNat) (by omega) (by omega)]

/-- At the latch edge all of the stream is consumed, so the LFSR holds the checksum of the held frame. -/
theorem RunConsistent.latch {s : State} (h : RunConsistent s) (hlatch : AtLatchEdge s) :
    FrameConsistent ⟨imageId s.hold, imageDlc s.hold, imageData s.hold, s.crc⟩ := by
  obtain ⟨-, hbusy, hcnt⟩ := hlatch
  refine ⟨h.dlc_le hbusy, ?_, h.tail_zero hbusy⟩
  rw [computeCrc15_of_le (h.dlc_le hbusy), frameImage_image]
  simpa [hcnt] using h.crc_eq hbusy

/-- The all-zero frame is what `build` gives for identifier 0 and length 0 (R138). -/
theorem frameConsistent_ofReset : FrameConsistent Frame.ofReset where
  dlc_le := Nat.zero_le 8
  crc_eq := by decide +kernel
  tail_zero _ _ := by simp [Frame.ofReset, payloadByte]

/-- Settles O54. The frame group changes at a latch edge, to the held frame, and at a reset edge; the run changes at the
edges that start it, consume a bit of it or end it, and no other edge is reached with a run in progress. -/
theorem checksumInvariantKept : Obligations.ChecksumInvariantKept := by
  intro s t hframe hrun hstep
  cases step_edgeTo hstep with
  | reset => exact ⟨frameConsistent_ofReset, .of_not_busy rfl rfl⟩
  | latch hlatch => exact ⟨hrun.latch hlatch, .of_not_busy rfl hlatch.2.2⟩
  | shift hshift => exact ⟨hframe, hrun.shift hshift⟩
  | build hacc hdlc =>
    exact ⟨hframe, runConsistent_startRun _ hdlc fun _ hi => payloadByte_maskPayload_tail _ hi⟩
  | tick =>
    rw [tick_eq]
    exact ⟨hframe, runConsistent_startRun _ (encodeSignal_dlc_le _ _ _) fun _ hi => payloadByte_encodeSignal_tail _ _ _ hi⟩
  | nop hacc | crcClr hacc | crcBit hacc | badBuild hacc =>
    exact ⟨hframe, .of_not_busy hacc.not_busy (hrun.not_busy hacc.not_busy)⟩

end Sys2Proof.Machine
end

section
/-!
PROOFS. The flags, the index and the write table (`10_state.md` R29, R32, R36, R37, R48).
-/

namespace Sys2Proof.Machine

/-! The three flags after an edge (R29, R36, R37). -/

/-- `f_valid` marks latch edges. -/
theorem EdgeTo.fValid_iff {s t : State} (h : EdgeTo s t) : t.fValid = true ↔ AtLatchEdge s := by
  cases h with
  | latch hlatch => simp [hlatch]
  | reset hrst => simp [not_atLatchEdge_of_rst hrst]
  | shift hshift => simp [hshift.not_atLatchEdge]
  | nop hacc | crcClr hacc | crcBit hacc | badBuild hacc | build hacc => simp [hacc.not_atLatchEdge]
  | tick hacc => simp [tick_eq, hacc.not_atLatchEdge]

/-- `err_len` marks the edges that raise InvalidLength. -/
theorem EdgeTo.errLen_iff {s t : State} (h : EdgeTo s t) : t.errLen = true ↔ AcceptsBadBuild s := by
  cases h with
  | reset hrst => simp [not_acceptsBadBuild_of_rst hrst]
  | latch hlatch => simp [not_acceptsBadBuild_of_busy hlatch.2.1]
  | shift hshift => simp [not_acceptsBadBuild_of_busy hshift.2.1]
  | nop hacc hi => simp [hacc.acceptsBadBuild_iff, keepsContract_of_mem_nops hi]
  | crcClr hacc | crcBit hacc => simp [hacc.acceptsBadBuild_iff, Instr.keepsContract]
  | badBuild hacc hdlc | build hacc hdlc => simp [hacc.acceptsBadBuild_iff, Instr.keepsContract, hdlc]
  | tick hacc hadv =>
    simp [tick_eq, hacc.acceptsBadBuild_iff, keepsContract_of_isTick (isTick_of_tickAdvance hadv)]

/-- Outside a reset edge `err_sticky` is the old value, or `err_len`: InvalidLength sets both, no other edge touches it. -/
theorem EdgeTo.errSticky_eq {s t : State} (h : EdgeTo s t) (hrst : (pins s).rst = false) :
    t.errSticky = (s.errSticky || t.errLen) := by
  cases h with
  | reset hrst' => simp [hrst] at hrst'
  | tick => simp [tick_eq]
  | latch | shift | nop | crcClr | crcBit | badBuild | build => simp

/-- Settles O9. -/
theorem pulseFlagsMark : Obligations.PulseFlagsMark := fun _ _ hstep =>
  ⟨(step_edgeTo hstep).fValid_iff, (step_edgeTo hstep).errLen_iff⟩

/-- Settles O10. A reset edge clears the flag; at any other edge it gathers `err_len`, which marks the BUILDs that raise
InvalidLength. -/
theorem stickyFlagRecords : Obligations.StickyFlagRecords := by
  intro s t hstep
  have hedge := step_edgeTo hstep
  cases hrst : (pins s).rst with
  | true =>
    cases hstep.symm.trans (step_of_rst (step_next_cases hstep).1 hrst)
    simp
  | false => simp [hedge.errSticky_eq hrst, hedge.errLen_iff]

/-! The write table (R48). -/

/-- Settles O18. Each kind of edge keeps every register its column of the table leaves blank, so a register that changed
names the edge. -/
theorem onlyTheTableWrites : Obligations.OnlyTheTableWrites := by
  intro s t hstep hrst
  cases step_edgeTo hstep with
  | reset hrst' => simp [hrst] at hrst'
  | latch hlatch => simp [hlatch]
  | shift hshift => simp [hshift]
  | nop => simp
  | crcClr hacc => simp [hacc]
  | crcBit hacc =>
    have hbit : ∃ din, Accepts (.crcBit din) s := ⟨_, hacc⟩
    simp [hbit]
  | badBuild hacc hdlc =>
    have hbad : AcceptsBadBuild s := ⟨_, _, _, hacc, hdlc⟩
    simp [hbad]
  | build hacc hdlc =>
    have hbuild : AcceptsBuild s := ⟨_, _, _, hacc, hdlc⟩
    simp [hbuild]
  | tick hacc hadv =>
    have htick : AcceptsTick s := ⟨_, hacc, isTick_of_tickAdvance hadv⟩
    simp [tick_eq, htick, steer_of_tickAdvance hadv]

/-! The index and the agreement of the flags (R29, R32, R36, R37, R133). -/

/-- A configuration sends one to eight kinds (R7). -/
theorem kinds_length_mem {c : Cfg} (h : c.valid = true) : 1 ≤ c.kinds.length ∧ c.kinds.length ≤ 8 := by
  have htable := (configurationTable c).mp h
  omega

/-- The next index is below K (R193). -/
theorem rotate_lt {c : Cfg} (h : c.valid = true) (idx : BitVec 3) : (rotate c idx).toNat < c.kinds.length := by
  obtain ⟨hpos, hle⟩ := kinds_length_mem h
  rw [rotate_toNat hpos hle]
  exact Nat.mod_lt _ hpos

/-- With both pulses low the flags claim nothing. -/
theorem FlagsConsistent.of_low {s : State} (hvalid : s.fValid = false) (herr : s.errLen = false) : FlagsConsistent s where
  err_recorded h := by simp [herr] at h
  err_excludes h := by simp [herr] at h
  valid_fresh h := by simp [hvalid] at h

/-- After a latch edge the frame ports show the held frame and the LFSR (R133). -/
theorem flagsConsistent_latchEdge (s : State) : FlagsConsistent (latchEdge s) where
  err_recorded h := by simp at h
  err_excludes h := by simp at h
  valid_fresh _ := ⟨rfl, rfl, (frameImage_image s.hold).symm⟩

/-- After InvalidLength both error flags are up, and no run is in progress if none was (R232). -/
theorem flagsConsistent_raiseInvalidLength {s : State} (hbusy : s.busy = false) :
    FlagsConsistent (raiseInvalidLength s) where
  err_recorded _ := rfl
  err_excludes _ := ⟨rfl, hbusy⟩
  valid_fresh h := by simp at h

/-- Whatever the flags said before an edge, they agree after it. -/
theorem EdgeTo.flagsConsistent {s t : State} (h : EdgeTo s t) : FlagsConsistent t := by
  cases h with
  | latch => exact flagsConsistent_latchEdge _
  | badBuild hacc => exact flagsConsistent_raiseInvalidLength hacc.not_busy
  | reset | shift | nop | crcClr | crcBit | build | tick => exact .of_low rfl rfl

/-- Settles O55. The index moves at a tick, by the rotation, and falls to 0 at a reset; the flags agree after any edge. -/
theorem indexAndFlagsKept : Obligations.IndexAndFlagsKept := by
  intro s t hidx _ hstep
  have hvalid := (step_next_cases hstep).1
  have hedge := step_edgeTo hstep
  refine ⟨?_, hedge.flagsConsistent⟩
  cases hedge with
  | reset => exact (kinds_length_mem hvalid).1
  | tick => exact rotate_lt hvalid s.idx
  | latch | shift | nop | crcClr | crcBit | badBuild | build => exact hidx

end Sys2Proof.Machine
end

section
/-!
PROOFS. The ports and the reset state (`10_state.md` R43, R44, R47, `42_vehicle_simulator.md` R166).
-/

namespace Sys2Proof.Machine

/-! A command word on the port (R43). -/

/-- A word the table reading gives a command for is, on the port, a command word that decodes to it. -/
theorem decode_of_decodeTableWord {nbits w : Nat} {i : Instr} (h : decodeTableWord nbits w = some i) :
    decode (BitVec.ofNat 82 (w % 2 ^ nbits)) = i := by
  rw [decodeTableWord, decodeWord] at h
  by_cases hfits : w % 2 ^ nbits < 2 ^ 82
  · rw [if_pos hfits] at h
    exact Option.some.inj h
  · rw [if_neg hfits] at h
    cases h

/-- An edge that accepts a command runs it (R217). -/
theorem Accepts.step_eq {i : Instr} {s : State} (h : Accepts i s) : step s = exec i (passEdge s) := by
  rw [Machine.step_eq h.configured, h.decoded]
  simp [h.no_reset, h.not_busy]

/-- Settles O7. The placed word is the next edge's port value and no run is in progress, so the edge accepts it. -/
theorem placedWordIsRun : Obligations.PlacedWordIsRun := by
  intro s nbits w i hvalid hword
  have hpins : pins (s.withFetchWord nbits w) = commandPins nbits w := rfl
  have hacc : Accepts i (s.withFetchWord nbits w) :=
    ⟨hvalid, by rw [hpins]; rfl, rfl, by rw [hpins]; exact decode_of_decodeTableWord hword⟩
  exact hacc.step_eq

/-- Settles O19. The ports are the registers by definition; the phase shows as its code, phase by phase. -/
theorem outputPortsShowRegisters : Obligations.OutputPortsShowRegisters := by
  intro s
  cases hphase : s.veh.phase <;> simp [outputs, phaseCode, hphase]

/-! The reset values, which a valid configuration keeps inside the register widths (R47, R165). -/

theorem ofReset_rpm_toNat {c : Cfg} (h : c.valid = true) : (Vehicle.ofReset c).rpm.toNat = c.idleRpm := by
  have htable := (configurationTable c).mp h
  exact toNat_ofNat_of_lt (by omega)

theorem ofReset_coolant_toInt {c : Cfg} (h : c.valid = true) : (Vehicle.ofReset c).coolant.toInt = c.coolantInit := by
  have htable := (configurationTable c).mp h
  exact toInt_ofInt_of_mem (by omega) (by omega)

theorem ofReset_steer_toInt {c : Cfg} (h : c.valid = true) : (Vehicle.ofReset c).steer.toInt = c.steerInit := by
  have htable := (configurationTable c).mp h
  exact toInt_ofInt_of_mem (by omega) (by omega)

/-- Settles O11. -/
theorem resetEdgeValues : Obligations.ResetEdgeValues := by
  intro s hvalid hrst
  refine ⟨_, step_of_rst hvalid hrst, rfl, rfl, ofReset_rpm_toNat hvalid, rfl, rfl, rfl, ofReset_coolant_toInt hvalid,
    ofReset_steer_toInt hvalid, ?_⟩
  simp [Frame.ofReset, Vehicle.ofReset]

/-- The reset vehicle is inside its domains (R166). -/
theorem vehicleInDomain_ofReset {c : Cfg} (h : c.valid = true) (script : List Pins) (edge : Nat) :
    VehicleInDomain (State.ofReset c script edge) := by
  have hrpm := ofReset_rpm_toNat h
  have hcoolant := ofReset_coolant_toInt h
  obtain ⟨hrpmMax, hceiling⟩ : c.idleRpm ≤ c.rpmMax ∧ c.coolantInit ≤ c.coolantCeiling := by
    have htable := (configurationTable c).mp h
    omega
  exact {
    rpm_ge := hrpm.ge
    rpm_le := hrpm.trans_le hrpmMax
    speed_le := Nat.zero_le _
    throttle_le := Nat.zero_le _
    coolant_ge := hcoolant.ge
    coolant_le := hcoolant.trans_le hceiling
    idle_still := fun _ => rfl
    steer_const := ofReset_steer_toInt h
    idle_ticks := fun _ => Nat.zero_le _
    cruise_ticks := fun hphase => nomatch hphase }

/-- The reset state of a valid configuration satisfies every invariant. -/
theorem legal_ofReset {c : Cfg} (h : c.valid = true) (script : List Pins) (edge : Nat) :
    Legal (State.ofReset c script edge) where
  configured := h
  vehicle := vehicleInDomain_ofReset h script edge
  index := (kinds_length_mem h).1
  frame := frameConsistent_ofReset
  run := .of_not_busy rfl rfl
  flags := .of_low rfl rfl

/-- Settles O56. `CFG_REF` is a valid configuration, so the second part is the first at it. -/
theorem resetStateIsLegal : Obligations.ResetStateIsLegal :=
  ⟨fun _ script edge hvalid => legal_ofReset hvalid script edge, legal_ofReset Tests.test_wf_reference [] 0⟩

end Sys2Proof.Machine
end

section
/-!
PROOFS. Payload bytes and the checksum stream (`20_memory.md` R61, R62, `30_encoding.md` R89, `41_frame_model.md` R136).
-/

namespace Sys2Proof.Machine

/-! Payload bytes side by side: each ends where the next begins (R61, R136). -/

/-- The eight bytes in ascending order, byte 0 most significant, are the payload. -/
theorem append_payloadBytes (d : Payload) :
    payloadByte d 0 ++ payloadByte d 1 ++ payloadByte d 2 ++ payloadByte d 3 ++
      payloadByte d 4 ++ payloadByte d 5 ++ payloadByte d 6 ++ payloadByte d 7 = d := by
  change d.extractLsb' 56 8 ++ d.extractLsb' 48 8 ++ d.extractLsb' 40 8 ++ d.extractLsb' 32 8 ++
    d.extractLsb' 24 8 ++ d.extractLsb' 16 8 ++ d.extractLsb' 8 8 ++ d.extractLsb' 0 8 = d
  simp only [BitVec.extractLsb'_append_extractLsb'_eq_extractLsb']
  exact BitVec.extractLsb'_eq_self

/-- A byte followed by the next one is a 16-bit slice. -/
theorem payloadByte_append_succ (d : Payload) (i : Fin 7) :
    payloadByte d ⟨i.val, by omega⟩ ++ payloadByte d ⟨i.val + 1, by omega⟩ = d.extractLsb' (48 - 8 * i.val) 16 := by
  rw [payloadByte, payloadByte, BitVec.extractLsb'_append_extractLsb'_eq_extractLsb' (by simp only; omega)]
  simp only [show 56 - 8 * (i.val + 1) = 48 - 8 * i.val by omega]

/-- `Be16`'s sum is the number its two bytes spell, the high byte first. -/
theorem be16_eq_append (d : Payload) (i : Fin 7) :
    be16 d i = (payloadByte d ⟨i.val, by omega⟩ ++ payloadByte d ⟨i.val + 1, by omega⟩).toNat := by
  rw [BitVec.toNat_append, ← Nat.shiftLeft_add_eq_or_of_lt (BitVec.isLt _), Nat.shiftLeft_eq]
  rfl

/-- Settles O23. -/
theorem payloadLayout : Obligations.PayloadLayout := fun d =>
  ⟨append_payloadBytes d, fun i => by rw [be16_eq_append, payloadByte_append_succ]⟩

/-! The stream, bit by bit (R62, R89). -/

/-- Stream bit `k` is image bit `78 - k`. -/
theorem imageStream_getElem? {n k : Nat} (h : FrameImage) (hk : k < n) :
    (imageStream h n)[k]? = some (h.getLsbD (78 - k)) := by
  simp [imageStream, hk]

/-- A frame's stream reads its image from bit 78 downward. -/
theorem stream_getElem? {id : Identifier} {dlc : Length} {data : Payload} {k : Nat} (hk : k < streamLength dlc) :
    (stream id dlc data)[k]? = some ((frameImage id dlc data).getLsbD (78 - k)) :=
  imageStream_getElem? _ hk

/-- Settles O21. Each range of stream bits is one field of the frame image, so in each the image bit `78 - k` is a bit of
that field. -/
theorem streamOrder : Obligations.StreamOrder := by
  intro id dlc data _
  have hlen : streamLength dlc = 15 + 8 * dlc.toNat := rfl
  refine ⟨imageStream_length _ _, fun k hk => ?identifier, fun k hlo hhi => ?length, fun i j hi hj => ?payload⟩
  case identifier =>
    rw [stream_getElem? (by omega), frameImage_getLsbD, if_neg (by omega), if_neg (by omega),
      show 78 - k - 68 = 10 - k by omega]
  case length =>
    rw [stream_getElem? (by omega), frameImage_getLsbD, if_neg (by omega), if_pos (by omega),
      show 78 - k - 64 = 14 - k by omega]
  case payload =>
    rw [stream_getElem? (by omega), frameImage_getLsbD, if_pos (by omega), payloadByte_getLsbD,
      decide_eq_true (by omega), Bool.true_and, show 78 - (15 + 8 * i.val + j) = 56 - 8 * i.val + (7 - j) by omega]

end Sys2Proof.Machine
end

section
/-!
PROOFS. The command word (`30_encoding.md` R80 to R88, R98): a word in the terms of its formats' fields, when it decodes to a
command, what it keeps under the command's mask, and which row of the operation map it selects.
-/

namespace Sys2Proof

/-! The formats: every word is its fields side by side, so a mask written in a format keeps the fields it covers (R81 to
R84). -/

/-- Two words in two parts are equal part by part. -/
theorem append_eq_append_iff {n m : Nat} {a c : BitVec n} {b d : BitVec m} : a ++ b = c ++ d ↔ a = c ∧ b = d := by
  constructor
  · intro h
    have hleft := congrArg (BitVec.extractLsb' m n) h
    have hright := congrArg (BitVec.extractLsb' 0 m) h
    rw [BitVec.extractLsb'_append_eq_left, BitVec.extractLsb'_append_eq_left] at hleft
    rw [BitVec.extractLsb'_append_eq_right, BitVec.extractLsb'_append_eq_right] at hright
    exact ⟨hleft, hright⟩
  · rintro ⟨rfl, rfl⟩
    rfl

/-- A flag's bit is a slice of width 1. -/
theorem ofBool_getLsbD_eq_extractLsb' {n : Nat} (x : BitVec n) (i : Nat) :
    BitVec.ofBool (x.getLsbD i) = x.extractLsb' i 1 := by
  apply BitVec.eq_of_getLsbD_eq
  intro k hk
  obtain rfl : k = 0 := by omega
  simp

/-- Format N: `op` and the rest. -/
theorem word_eq_formatN (cw : CommandWord) : cw = cwOp cw ++ cw.extractLsb' 0 79 := by
  rw [cwOp]
  simp only [BitVec.extractLsb'_append_extractLsb'_eq_extractLsb', BitVec.extractLsb'_eq_self]

/-- Format S: `op`, ignored bits, `din`. -/
theorem word_eq_formatS (cw : CommandWord) : cw = cwOp cw ++ cw.extractLsb' 1 78 ++ BitVec.ofBool (cwDin cw) := by
  rw [cwOp, cwDin, ofBool_getLsbD_eq_extractLsb']
  simp only [BitVec.extractLsb'_append_extractLsb'_eq_extractLsb', BitVec.extractLsb'_eq_self]

/-- Format B: all bits are operands. -/
theorem word_eq_formatB (cw : CommandWord) : cw = encodeB (cwOp cw) (cwId cw) (cwDlc cw) (cwData cw) := by
  rw [encodeB, cwOp, cwId, cwDlc, cwData]
  simp only [BitVec.extractLsb'_append_extractLsb'_eq_extractLsb', BitVec.extractLsb'_eq_self]

/-- Format T: `op`, ignored bits, the three flags, `thr_in`. -/
theorem word_eq_formatT (cw : CommandWord) :
    cw = cwOp cw ++ cw.extractLsb' 10 69 ++ BitVec.ofBool (cwManual cw) ++ BitVec.ofBool (cwAccel cw) ++
      BitVec.ofBool (cwBrk cw) ++ cwThrIn cw := by
  rw [cwOp, cwManual, cwAccel, cwBrk, cwThrIn]
  simp only [ofBool_getLsbD_eq_extractLsb', BitVec.extractLsb'_append_extractLsb'_eq_extractLsb',
    BitVec.extractLsb'_eq_self]

/-- A mask of zeros keeps nothing of a field. -/
theorem and_noBits {n : Nat} (x : BitVec n) : x &&& 0 = 0 := BitVec.and_zero

/-- Masking `op` with 7 keeps it whole. -/
theorem and_seven (op : BitVec 3) : op &&& 7 = op := BitVec.and_allOnes

/-- Masking `thr_in` with 0x7F keeps it whole. -/
theorem and_0x7F (thrIn : BitVec 7) : thrIn &&& 0x7F = thrIn := BitVec.and_allOnes

/-- A format N mask keeps what it covers of `op`. -/
theorem and_encodeN (cw : CommandWord) (op : BitVec 3) : cw &&& encodeN op = encodeN (cwOp cw &&& op) := by
  conv_lhs => rw [word_eq_formatN cw]
  exact BitVec.and_append.trans (congrArg _ (and_noBits _))

/-- A format S mask keeps what it covers of `op` and `din`. -/
theorem and_encodeS (cw : CommandWord) (op : BitVec 3) (din : Bool) :
    cw &&& encodeS op din = encodeS (cwOp cw &&& op) (cwDin cw && din) := by
  conv_lhs => rw [word_eq_formatS cw]
  rw [encodeS, BitVec.and_append (w := 3 + 78)]
  simp only [encodeS, BitVec.and_append, and_noBits, BitVec.ofBool_and_ofBool]

/-- A format T mask keeps what it covers of `op`, the flags and `thr_in`. -/
theorem and_encodeT (cw : CommandWord) (op : BitVec 3) (manual accel brk : Bool) (thrIn : BitVec 7) :
    cw &&& encodeT op manual accel brk thrIn =
      encodeT (cwOp cw &&& op) (cwManual cw && manual) (cwAccel cw && accel) (cwBrk cw && brk) (cwThrIn cw &&& thrIn) := by
  conv_lhs => rw [word_eq_formatT cw]
  rw [encodeT, BitVec.and_append (w := 3 + 69 + 1 + 1 + 1)]
  simp only [encodeT, BitVec.and_append, and_noBits, BitVec.ofBool_and_ofBool]

/-! Each format determines its fields. -/

theorem encodeN_inj {op op' : BitVec 3} : encodeN op = encodeN op' ↔ op = op' := BitVec.append_left_inj _

theorem encodeS_inj {op op' : BitVec 3} {din din' : Bool} : encodeS op din = encodeS op' din' ↔ op = op' ∧ din = din' := by
  rw [encodeS, encodeS, append_eq_append_iff (n := 3 + 78)]
  simp only [append_eq_append_iff, and_true, BitVec.ofBool_eq_iff_eq]

theorem encodeB_inj {op op' : BitVec 3} {id id' : Identifier} {dlc dlc' : Length} {data data' : Payload} :
    encodeB op id dlc data = encodeB op' id' dlc' data' ↔ op = op' ∧ id = id' ∧ dlc = dlc' ∧ data = data' := by
  rw [encodeB, encodeB, append_eq_append_iff (n := 3 + 11 + 4)]
  simp only [append_eq_append_iff, and_assoc]

theorem encodeT_inj {op op' : BitVec 3} {manual manual' accel accel' brk brk' : Bool} {thrIn thrIn' : BitVec 7} :
    encodeT op manual accel brk thrIn = encodeT op' manual' accel' brk' thrIn' ↔
      op = op' ∧ manual = manual' ∧ accel = accel' ∧ brk = brk' ∧ thrIn = thrIn' := by
  rw [encodeT, encodeT, append_eq_append_iff (n := 3 + 69 + 1 + 1 + 1)]
  simp only [append_eq_append_iff, and_true, and_assoc, BitVec.ofBool_eq_iff_eq]

/-! The decoder, by the fields it reads (R85, R86, R88). -/

/-- The command's row of R85 read off the word: the selecting bits of the row, and its operand fields. -/
def HasFieldsOf (cw : CommandWord) : Instr → Prop
  | .nop => cwOp cw = 0
  | .crcClr => cwOp cw = 1
  | .crcBit din => cwOp cw = 2 ∧ cwDin cw = din
  | .build id dlc data => cwOp cw = 3 ∧ cwId cw = id ∧ cwDlc cw = dlc ∧ cwData cw = data
  | .tickAuto => cwOp cw = 4 ∧ cwManual cw = false
  | .tickMacc thrIn =>
    cwOp cw = 4 ∧ cwManual cw = true ∧ cwAccel cw = true ∧ cwBrk cw = false ∧ cwThrIn cw = thrIn
  | .tickMbrk => cwOp cw = 4 ∧ cwManual cw = true ∧ cwBrk cw = true
  | .tickMcst => cwOp cw = 4 ∧ cwManual cw = true ∧ cwAccel cw = false ∧ cwBrk cw = false
  | .rsvd5 => cwOp cw = 5
  | .rsvd6 => cwOp cw = 6
  | .rsvd7 => cwOp cw = 7

/-- `op` = 4 leaves the choice of the form to the flags (R88). -/
theorem decode_formatT {cw : CommandWord} (hop : cwOp cw = 4) : decode cw = decodeTick cw := by
  simp [decode, hop]

/-- A word with the command's fields decodes to the command. -/
theorem HasFieldsOf.decode_eq {cw : CommandWord} {i : Instr} (h : HasFieldsOf cw i) : decode cw = i := by
  cases i with
  | nop | crcClr | rsvd5 | rsvd6 | rsvd7 =>
    have hop : cwOp cw = _ := h
    simp [decode, hop]
  | crcBit | build =>
    obtain ⟨hop, hoperands⟩ := h
    simp [decode, hop, hoperands]
  | tickAuto | tickMacc | tickMbrk | tickMcst =>
    obtain ⟨hop, hflags⟩ := h
    simp [decode_formatT hop, decodeTick, hflags]

/-- In format T the word has the fields of one of the four TICK forms (R85, R86). -/
theorem hasFieldsOf_decodeTick {cw : CommandWord} (hop : cwOp cw = 4) : HasFieldsOf cw (decodeTick cw) := by
  unfold decodeTick
  cases hmanual : cwManual cw with
  | false => simp [HasFieldsOf, hop, hmanual]
  | true =>
    cases hbrk : cwBrk cw with
    | true => simp [HasFieldsOf, hop, hmanual, hbrk]
    | false => cases haccel : cwAccel cw <;> simp [HasFieldsOf, hop, hmanual, hbrk, haccel]

/-- `op` is one of its eight codes, format T's first (R85). -/
theorem op_cases (op : BitVec 3) : op = 4 ∨ op = 0 ∨ op = 1 ∨ op = 2 ∨ op = 3 ∨ op = 5 ∨ op = 6 ∨ op = 7 := by
  revert op
  decide

/-- Every word has the fields of the command it decodes to: the rows of R85 leave no word out. -/
theorem hasFieldsOf_decode (cw : CommandWord) : HasFieldsOf cw (decode cw) := by
  obtain hop | hop | hop | hop | hop | hop | hop | hop := op_cases (cwOp cw)
  · rw [decode_formatT hop]
    exact hasFieldsOf_decodeTick hop
  all_goals simp [decode, hop, HasFieldsOf]

/-- A word decodes to a command exactly when it has the command's fields. -/
theorem decode_eq_iff_hasFieldsOf {cw : CommandWord} {i : Instr} : decode cw = i ↔ HasFieldsOf cw i :=
  ⟨fun h => h ▸ hasFieldsOf_decode cw, HasFieldsOf.decode_eq⟩

/-! The read bits, and the canonical word (R98). -/

/-- The command's mask keeps exactly the command's fields, so what is left of a word is the canonical word exactly when the
word has them. -/
theorem and_readMask_eq_encode_iff {cw : CommandWord} {i : Instr} :
    cw &&& readMask i = encode i ↔ HasFieldsOf cw i := by
  cases i with
  | nop | crcClr | rsvd5 | rsvd6 | rsvd7 => simp only [readMask, encode, and_encodeN, and_seven, encodeN_inj, HasFieldsOf]
  | crcBit => simp only [readMask, encode, and_encodeS, and_seven, Bool.and_true, encodeS_inj, HasFieldsOf]
  | build =>
    rw [readMask, encode, BitVec.and_allOnes]
    conv_lhs => rw [word_eq_formatB cw, encodeB_inj]
    rfl
  | tickAuto | tickMacc | tickMbrk | tickMcst =>
    simp only [readMask, encode, and_encodeT, and_seven, and_0x7F, encodeT_inj, HasFieldsOf, Bool.and_true, Bool.and_false,
      and_noBits, and_true, true_and]

/-- What is said of each command's canonical word, for all commands. -/
theorem canonicalWord (i : Instr) : Laws.CanonicalWord.Statement i := by
  cases i with
  | nop => exact Laws.CanonicalWord.nop
  | crcClr => exact Laws.CanonicalWord.crcClr
  | crcBit din => exact Laws.CanonicalWord.crcBit din
  | build id dlc data => exact Laws.CanonicalWord.build id dlc data
  | tickAuto => exact Laws.CanonicalWord.tickAuto
  | tickMacc thrIn => exact Laws.CanonicalWord.tickMacc thrIn
  | tickMbrk => exact Laws.CanonicalWord.tickMbrk
  | tickMcst => exact Laws.CanonicalWord.tickMcst
  | rsvd5 => exact Laws.CanonicalWord.rsvd5
  | rsvd6 => exact Laws.CanonicalWord.rsvd6
  | rsvd7 => exact Laws.CanonicalWord.rsvd7

/-- Decoding a canonical word gives the command back. -/
@[simp] theorem decode_encode (i : Instr) : decode (encode i) = i :=
  (and_readMask_eq_encode_iff.mp (canonicalWord i).1).decode_eq

/-- A command word is read whole from any table width that holds its 82 bits (A11). -/
theorem decodeTableWord_toNat {nbits : Nat} (h : 82 ≤ nbits) (cw : CommandWord) :
    decodeTableWord nbits cw.toNat = some (decode cw) := by
  have hlow : cw.toNat % 2 ^ nbits = cw.toNat :=
    Nat.mod_eq_of_lt (cw.isLt.trans_le (Nat.pow_le_pow_right (by omega) h))
  rw [decodeTableWord, hlow, decodeWord, if_pos cw.isLt, BitVec.ofNat_toNat, BitVec.setWidth_eq]

/-- Settles O2. Both sides say that the word has the command's fields. -/
theorem decodeReadsExactlyItsBits : Obligations.DecodeReadsExactlyItsBits := fun _ _ =>
  decode_eq_iff_hasFieldsOf.trans and_readMask_eq_encode_iff.symm

/-- Settles O1. -/
theorem decodeEncodeRoundTrip : Obligations.DecodeEncodeRoundTrip := fun i =>
  ⟨decode_encode i, by rw [decodeTableWord_toNat (by omega), decode_encode]⟩

/-! The operation map (R85, R86). -/

/-- A row that compares `op` alone selects the words with its `op`. -/
theorem selectsRow_formatN {m : String} {op : BitVec 3} {cw : CommandWord} :
    selectsRow ⟨m, encodeN op, encodeN 7⟩ cw = true ↔ cwOp cw = op := by
  rw [selectsRow, beq_iff_eq, and_encodeN, and_seven, encodeN_inj]

/-- A row that also compares flags of format T selects the words whose compared flags are the pattern's. -/
theorem selectsRow_formatT {m : String} {op : BitVec 3} {manual accel brk manual' accel' brk' : Bool} {cw : CommandWord} :
    selectsRow ⟨m, encodeT op manual accel brk 0, encodeT 7 manual' accel' brk' 0⟩ cw = true ↔
      cwOp cw = op ∧ (cwManual cw && manual') = manual ∧ (cwAccel cw && accel') = accel ∧ (cwBrk cw && brk') = brk := by
  simp only [selectsRow, beq_iff_eq, and_encodeT, and_seven, encodeT_inj, and_noBits,
    and_true]

/-- The operation map's hexadecimal words, written as the formats they stand for. -/
theorem opTable_eq_formats : opTable =
    [ ⟨"NOP", encodeN 0, encodeN 7⟩,
      ⟨"CRC_CLR", encodeN 1, encodeN 7⟩,
      ⟨"CRC_BIT", encodeN 2, encodeN 7⟩,
      ⟨"BUILD", encodeN 3, encodeN 7⟩,
      ⟨"TICK.AUTO", encodeT 4 false false false 0, encodeT 7 true false false 0⟩,
      ⟨"TICK.MACC", encodeT 4 true true false 0, encodeT 7 true true true 0⟩,
      ⟨"TICK.MBRK", encodeT 4 true false true 0, encodeT 7 true false true 0⟩,
      ⟨"TICK.MCST", encodeT 4 true false false 0, encodeT 7 true true true 0⟩,
      ⟨"RSVD5", encodeN 5, encodeN 7⟩,
      ⟨"RSVD6", encodeN 6, encodeN 7⟩,
      ⟨"RSVD7", encodeN 7, encodeN 7⟩ ] := by
  decide

/-- Settles O3. The word's fields are those of its command, and each row compares fields: every row but the command's own
differs from them in `op` or in a flag. -/
theorem operationMapPartitions : Obligations.OperationMapPartitions := by
  intro cw
  have hfields := hasFieldsOf_decode cw
  generalize decode cw = i at hfields
  simp only [opTable_eq_formats, List.forall_mem_cons, selectsRow_formatN, selectsRow_formatT]
  cases i with
  | nop | crcClr | rsvd5 | rsvd6 | rsvd7 =>
    have hop : cwOp cw = _ := hfields
    simp [hop, mnemonic]
  | crcBit | build =>
    obtain ⟨hop, -⟩ := hfields
    simp [hop, mnemonic]
  | tickAuto | tickMacc | tickMbrk | tickMcst =>
    obtain ⟨hop, hflags⟩ := hfields
    simp [hop, hflags, mnemonic]

/-- Settles O4. -/
theorem brakeWinsInFormatT : Obligations.BrakeWinsInFormatT := by
  intro cw hop
  have brakeWins (hmanual : cw.getLsbD 9 = true) (hbrk : cw.getLsbD 7 = true) : HasFieldsOf cw .tickMbrk :=
    ⟨hop, hmanual, hbrk⟩
  have operandsIgnored (hmanual : cw.getLsbD 9 = false) : HasFieldsOf cw .tickAuto := ⟨hop, hmanual⟩
  exact ⟨fun hmanual _ hbrk => (brakeWins hmanual hbrk).decode_eq, fun hmanual => (operandsIgnored hmanual).decode_eq⟩

/-- Settles O5. -/
theorem specWordsDecode : Obligations.SpecWordsDecode := by
  unfold Obligations.SpecWordsDecode
  decide

end Sys2Proof
end

section
/-!
PROOFS. A run in progress to its end (`41_frame_model.md` R132, R133), and the lines a host drives meanwhile
(`30_encoding.md` R98, R99, `70_reset_and_hazards.md` R265).
-/

namespace Sys2Proof.Machine

/-! The registers of a run, apart from the host's side (R132, R133). -/

/-- What a shift edge does to the registers. -/
def shiftRegisters (s : State) : State :=
  { s with crc := crcStep s.crc (shiftBit s.hold s.cnt), cnt := s.cnt - 1, fValid := false, errLen := false }

/-- The registers after `k` shift edges. -/
def afterShifts : Nat → State → State
  | 0, s => s
  | k + 1, s => shiftRegisters (afterShifts k s)

/-- The registers when the run in progress is over: all bits shifted, the frame latched. -/
def afterRun (s : State) : State := latchEdge (afterShifts s.cnt.toNat s)

@[simp] theorem afterShifts_cfg (k : Nat) (s : State) : (afterShifts k s).cfg = s.cfg := by
  induction k with
  | zero => rfl
  | succ k ih => exact ih

@[simp] theorem afterShifts_script (k : Nat) (s : State) : (afterShifts k s).script = s.script := by
  induction k with
  | zero => rfl
  | succ k ih => exact ih

@[simp] theorem afterShifts_edge (k : Nat) (s : State) : (afterShifts k s).edge = s.edge := by
  induction k with
  | zero => rfl
  | succ k ih => exact ih

@[simp] theorem afterShifts_busy (k : Nat) (s : State) : (afterShifts k s).busy = s.busy := by
  induction k with
  | zero => rfl
  | succ k ih => exact ih

/-- `k` shift edges count `k` bits. -/
theorem afterShifts_cnt {k : Nat} {s : State} (h : k ≤ s.cnt.toNat) : (afterShifts k s).cnt.toNat = s.cnt.toNat - k := by
  induction k with
  | zero => rfl
  | succ k ih =>
    have hprev := ih (by omega)
    change ((afterShifts k s).cnt - 1).toNat = s.cnt.toNat - (k + 1)
    bv_omega

/-- Shift edges do not look at the host's side. -/
theorem afterShifts_withScript (k : Nat) (s : State) (script : List Pins) :
    afterShifts k { s with script := script } = { afterShifts k s with script := script } := by
  induction k with
  | zero => rfl
  | succ k ih =>
    rw [afterShifts, ih]
    rfl

theorem afterRun_withScript (s : State) (script : List Pins) :
    afterRun { s with script := script } = { afterRun s with script := script } := by
  rw [afterRun, afterShifts_withScript]
  rfl

/-! The edges of a run (R132, R133). -/

@[simp] theorem passEdges_cfg (k : Nat) (s : State) : (passEdges k s).cfg = s.cfg := rfl
@[simp] theorem passEdges_busy (k : Nat) (s : State) : (passEdges k s).busy = s.busy := rfl
@[simp] theorem passEdges_cnt (k : Nat) (s : State) : (passEdges k s).cnt = s.cnt := rfl

/-- The port values `k` edges on are the nearest after `k` edges. -/
theorem pins_passEdges (k : Nat) (s : State) : pins (passEdges k s) = pinsAt s k := by
  simp [pins, pinsAt, passEdges]

/-- A run's edges take the port values in order. -/
theorem pins_passEdges_afterShifts (k : Nat) (s : State) : pins (passEdges k (afterShifts k s)) = pinsAt s k := by
  rw [pins_passEdges, pinsAt_congr (afterShifts_script k s) (afterShifts_edge k s)]

theorem passEdge_passEdges (k : Nat) (s : State) : passEdge (passEdges k s) = passEdges (k + 1) s := by
  simp [passEdge, passEdges, Nat.add_assoc]

/-- A stretch of edges and one more. -/
theorem runEdges_snoc {s t u : State} {k : Nat} (hrun : runEdges k s = .next t) (hstep : step t = .next u) :
    runEdges (k + 1) s = .next u := by
  rw [runEdges_add 1 hrun, runEdges_succ 0 hstep, runEdges_zero]

/-- A shift edge that the rules cover (R132). -/
theorem step_of_atShiftEdge {s : State} (hvalid : s.cfg.valid = true) (hshift : AtShiftEdge s) (hcnt : s.cnt.toNat ≤ 79) :
    step s = .next (passEdge (shiftRegisters s)) := by
  obtain ⟨hrst, hbusy, hbits⟩ := hshift
  rw [step_eq hvalid, if_neg (by simp [hrst]), if_pos hbusy, if_neg hbits]
  exact shiftEdge_of_cnt_le (s := passEdge s) hcnt

/-- A latch edge (R133). -/
theorem step_of_atLatchEdge {s : State} (hvalid : s.cfg.valid = true) (hlatch : AtLatchEdge s) :
    step s = .next (passEdge (latchEdge s)) := by
  obtain ⟨hrst, hbusy, hcnt⟩ := hlatch
  rw [step_eq hvalid, if_neg (by simp [hrst]), if_pos hbusy, if_pos hcnt]
  rfl

/-- Without reset, the next `k` edges of a run with at least `k` bits to go are shift edges. -/
theorem runEdges_shifts {s : State} {k : Nat} (hvalid : s.cfg.valid = true) (hbusy : s.busy = true)
    (hcnt : s.cnt.toNat ≤ 79) (hk : k ≤ s.cnt.toNat) (hrst : NoResetFor k s) :
    runEdges k s = .next (passEdges k (afterShifts k s)) := by
  induction k with
  | zero => simp [passEdges, afterShifts]
  | succ k ih =>
    have hleft : (afterShifts k s).cnt.toNat = s.cnt.toNat - k := afterShifts_cnt (by omega)
    have hbits : (afterShifts k s).cnt ≠ 0 := by bv_omega
    have hshift : AtShiftEdge (passEdges k (afterShifts k s)) :=
      ⟨by rw [pins_passEdges_afterShifts, hrst k (by omega)], by simpa using hbusy, hbits⟩
    rw [runEdges_snoc (ih (by omega) fun j hj => hrst j (by omega))
      (step_of_atShiftEdge (by simpa using hvalid) hshift (by rw [passEdges_cnt]; omega)), ← passEdge_passEdges]
    rfl

/-- Without reset, a run with `cnt` bits to go is over after `cnt` shift edges and the latch edge. -/
theorem runEdges_toEndOfRun {s : State} (hvalid : s.cfg.valid = true) (hbusy : s.busy = true) (hcnt : s.cnt.toNat ≤ 79)
    (hrst : NoResetFor (s.cnt.toNat + 1) s) :
    runEdges (s.cnt.toNat + 1) s = .next (passEdges (s.cnt.toNat + 1) (afterRun s)) := by
  have hshifts := runEdges_shifts hvalid hbusy hcnt (le_refl _) fun j hj => hrst j (by omega)
  have hleft : (afterShifts s.cnt.toNat s).cnt.toNat = 0 := by rw [afterShifts_cnt (le_refl _), Nat.sub_self]
  have hlatch : AtLatchEdge (passEdges s.cnt.toNat (afterShifts s.cnt.toNat s)) :=
    ⟨by rw [pins_passEdges_afterShifts, hrst _ (by omega)], by simpa using hbusy, BitVec.eq_of_toNat_eq hleft⟩
  rw [runEdges_snoc hshifts (step_of_atLatchEdge (by simpa using hvalid) hlatch), ← passEdge_passEdges]
  rfl

/-! Operation lines driven during a run (R98, R99, R265). -/

/-- Operation lines drive no reset. -/
theorem noResetFor_of_operations {is : List Instr} {rest : List Pins} {s : State}
    (h : s.script = scriptOf (is.map .op) ++ rest) : NoResetFor is.length s := by
  intro j hj
  have hline : s.script[j]? = some ⟨false, encode is[j]⟩ := by
    rw [h, List.getElem?_append_left (by simpa [scriptOf] using hj)]
    simp [scriptOf, linePins, hj]
  simp [pinsAt, hline]

/-- Any operation lines that last for the run in progress are dropped: they end in the state the run alone leads to. -/
theorem runEdges_operations_toEndOfRun {s : State} (hvalid : s.cfg.valid = true) (hbusy : s.busy = true)
    (hcnt : s.cnt.toNat ≤ 79) {is : List Instr} (hlen : is.length = s.cnt.toNat + 1) (rest : List Pins) :
    runEdges (s.cnt.toNat + 1) { s with script := scriptOf (is.map .op) ++ rest } =
      .next { afterRun s with script := rest, edge := s.edge + (s.cnt.toNat + 1) } := by
  have hrst : NoResetFor (s.cnt.toNat + 1) { s with script := scriptOf (is.map .op) ++ rest } :=
    hlen ▸ noResetFor_of_operations rfl
  have hused : (scriptOf (is.map .op) ++ rest).drop (s.cnt.toNat + 1) = rest :=
    List.drop_left' (by simp [scriptOf, hlen])
  rw [runEdges_toEndOfRun (s := { s with script := scriptOf (is.map .op) ++ rest }) hvalid hbusy hcnt hrst,
    afterRun_withScript]
  simp [passEdges, hused, afterRun]

/-- Until the run is over, `busy` is 1 whatever operation lines are driven. -/
theorem runEdges_operations_busy {s : State} (hvalid : s.cfg.valid = true) (hbusy : s.busy = true)
    (hcnt : s.cnt.toNat ≤ 79) {is : List Instr} (hlen : is.length = s.cnt.toNat + 1) (rest : List Pins)
    {k : Nat} (hk : k ≤ s.cnt.toNat) :
    ∃ t, runEdges k { s with script := scriptOf (is.map .op) ++ rest } = .next t ∧ t.busy = true := by
  have hrst := noResetFor_of_operations (s := { s with script := scriptOf (is.map .op) ++ rest }) rfl
  exact ⟨_, runEdges_shifts hvalid hbusy hcnt hk fun j hj => hrst j (by omega), by simpa using hbusy⟩

/-- `WAIT` from a run in progress: a NOP line per edge of the run. -/
theorem waitLines_of_busy {s : State} (h : s.busy = true) :
    waitLines s = (List.replicate (s.cnt.toNat + 1) Instr.nop).map .op := by
  simp [waitLines, h]

/-- An operation issued during a run, and its `WAIT`: the dropped line and NOP lines, one line per edge of the run. -/
theorem withWait_of_busy {i : Instr} {s : State} (h : s.busy = true) :
    withWait i s = (i :: List.replicate s.cnt.toNat Instr.nop).map .op := by
  simp [withWait, waitedEdges_of_busy h]

/-- Settles O58. Both sequences are operation lines, one per edge of the run. -/
theorem waitLastsToTheEndOfTheRun : Obligations.WaitLastsToTheEndOfTheRun := by
  intro i s rest hvalid hbusy hcnt
  have hwait : (waitLines s).length = s.cnt.toNat + 1 := by rw [waitLines_length, if_pos hbusy]
  have hwithWait : (withWait i s).length = s.cnt.toNat + 1 := by rw [withWait_length, waitedEdges_of_busy hbusy]
  rw [hwait, hwithWait, waitLines_of_busy hbusy, withWait_of_busy hbusy]
  refine ⟨⟨{ afterRun s with script := rest, edge := s.edge + (s.cnt.toNat + 1) }, rfl, rfl, ?wait, ?withWait⟩,
    fun k _ hk => ?earlier⟩
  case wait => exact runEdges_operations_toEndOfRun hvalid hbusy hcnt (by simp) rest
  case withWait => exact runEdges_operations_toEndOfRun hvalid hbusy hcnt (by simp) rest
  case earlier => exact runEdges_operations_busy hvalid hbusy hcnt (by simp) rest (by omega)

end Sys2Proof.Machine
end

section
/-!
PROOFS. The CRC-15 engine (`40_crc15_engine.md` R110 to R116): the LFSR step over GF(2), the stream field by field, the
checksum, and the CRC_CLR, CRC_BIT route.
-/

namespace Sys2Proof.Machine

/-! The LFSR step (R110, R111). -/

/-- Every bit of the step is the shifted register's, plus the feedback where the polynomial has the bit. -/
theorem crcStep_getLsbD (c : Crc) (b : Bool) (i : Nat) :
    (crcStep c b).getLsbD i =
      ((c <<< 1).getLsbD i ^^ ((b ^^ c.getLsbD 14) && (0x4599 : Crc).getLsbD i)) := by
  simp only [crcStep]
  cases b ^^ c.getLsbD 14 <;> simp

/-- The polynomial's terms: bit 0 and the bits the table of R111 marks. -/
theorem polynomial_getLsbD {i : Nat} (hi : i < 15) :
    (0x4599 : Crc).getLsbD i = decide (i = 0 ∨ i ∈ [3, 4, 7, 8, 10, 14]) := by
  revert i
  decide

/-- The inner operands of an XOR of XORs change places. -/
theorem xor_swap_middle (a b c d : Bool) : ((a ^^ b) ^^ (c ^^ d)) = ((a ^^ c) ^^ (b ^^ d)) := by
  rw [Bool.xor_assoc, Bool.xor_left_comm b, ← Bool.xor_assoc]

/-- The step is linear in the register and the input bit together: the shift is, and so is the feedback. -/
theorem crcStep_xor (c₁ c₂ : Crc) (b₁ b₂ : Bool) :
    crcStep (c₁ ^^^ c₂) (b₁ ^^ b₂) = crcStep c₁ b₁ ^^^ crcStep c₂ b₂ := by
  apply BitVec.eq_of_getLsbD_eq
  intro i _
  have hfeedback : ((b₁ ^^ b₂) ^^ (c₁ ^^^ c₂).getLsbD 14) = ((b₁ ^^ c₁.getLsbD 14) ^^ (b₂ ^^ c₂.getLsbD 14)) := by
    rw [BitVec.getLsbD_xor, xor_swap_middle]
  rw [BitVec.getLsbD_xor, crcStep_getLsbD, crcStep_getLsbD, crcStep_getLsbD, hfeedback, BitVec.shiftLeft_xor_distrib,
    BitVec.getLsbD_xor, Bool.and_xor_distrib_right, xor_swap_middle]

/-- Settles O20. Bit 0 shifts in as 0, every other bit from below; the polynomial decides where the feedback enters. -/
theorem crcStepBitByBit : Obligations.CrcStepBitByBit := by
  refine ⟨fun c b i hi => ?_, crcStep_xor⟩
  rw [crcStep_getLsbD, polynomial_getLsbD hi, BitVec.getLsbD_shiftLeft]
  by_cases hzero : i = 0
  · simp [hzero]
  · have hshifted : ¬ i < 1 := by omega
    by_cases hterm : i ∈ [3, 4, 7, 8, 10, 14] <;> simp [hi, hzero, hshifted, hterm]

/-! The two commands of the engine (R113, R114). -/

/-- Settles O26. -/
theorem crcClrEffect : Obligations.CrcClrEffect := fun _ => rfl

/-- Settles O27. -/
theorem crcBitEffect : Obligations.CrcBitEffect := fun _ _ => rfl

/-! The stream, field by field (R62, R89). -/

/-- The bits of a word, most significant first, as the engine takes them (R62). -/
def msbFirst {n : Nat} (v : BitVec n) : List Bool := (List.range n).map fun k => v.getLsbD (n - 1 - k)

/-- `CRC_BITS` sends a word's bits, most significant first (R99). -/
theorem crcBits_eq_map (n : Nat) (v : BitVec n) : crcBits n v = (msbFirst v).map .crcBit := by
  simp [crcBits, msbFirst]

/-- `n` more stream bits are the next slice of the frame image, most significant bit first. -/
theorem imageStream_add (h : FrameImage) {m n : Nat} (hmn : m + n ≤ 79) :
    imageStream h (m + n) = imageStream h m ++ msbFirst (h.extractLsb' (79 - (m + n)) n) := by
  rw [imageStream, imageStream, msbFirst, List.range_add, List.map_append, List.map_map]
  congr 1
  apply List.map_congr_left
  intro k hk
  have hlt : k < n := List.mem_range.mp hk
  rw [BitVec.getLsbD_extractLsb', decide_eq_true (by omega), Bool.true_and, Function.comp_apply,
    show 79 - (m + n) + (n - 1 - k) = 78 - (m + k) by omega]

/-- A byte of a frame image's payload is a slice of the image. -/
theorem payloadByte_imageData (h : FrameImage) (i : Fin 8) :
    payloadByte (imageData h) i = h.extractLsb' (56 - 8 * i.val) 8 := by
  rw [payloadByte, imageData, BitVec.extractLsb'_extractLsb'_of_le (by omega)]

/-- The first fifteen stream bits are the identifier and the length. -/
theorem imageStream_header (h : FrameImage) : imageStream h 15 = msbFirst (imageId h) ++ msbFirst (imageDlc h) := by
  rw [imageStream_add h (m := 11) (n := 4) (by omega), imageStream_add h (m := 0) (n := 11) (by omega)]
  rfl

/-- The payload bytes of index below `m`, each most significant bit first. -/
def payloadBits (data : Payload) (m : Nat) : List Bool :=
  ((List.finRange 8).take m).flatMap fun i => msbFirst (payloadByte data i)

/-- `payloadBits` takes bytes of index below `m` only. -/
theorem lt_of_mem_take_finRange {m : Nat} {i : Fin 8} (h : i ∈ (List.finRange 8).take m) : i.val < m := by
  obtain ⟨j, hj, rfl⟩ := List.mem_take_iff_getElem.mp h
  rw [List.getElem_finRange]
  exact (lt_min_iff.mp hj).1

/-- The bytes below `m + 1` are the bytes below `m` and byte `m`. -/
theorem payloadBits_succ (data : Payload) {m : Nat} (hm : m < 8) :
    payloadBits data (m + 1) = payloadBits data m ++ msbFirst (payloadByte data ⟨m, hm⟩) := by
  rw [payloadBits, payloadBits, List.take_succ_eq_append_getElem (by simpa using hm)]
  simp

/-- After the header the stream is the payload bytes in ascending order. -/
theorem imageStream_payload (h : FrameImage) {m : Nat} (hm : m ≤ 8) :
    imageStream h (15 + 8 * m) = imageStream h 15 ++ payloadBits (imageData h) m := by
  induction m with
  | zero => simp [payloadBits]
  | succ m ih =>
    rw [payloadBits_succ _ (by omega), ← List.append_assoc, ← ih (by omega), payloadByte_imageData,
      show 15 + 8 * (m + 1) = 15 + 8 * m + 8 by omega, imageStream_add h (by omega),
      show 79 - (15 + 8 * m + 8) = 56 - 8 * m by omega]

/-- A frame's stream is its identifier, its length and the payload bytes below the length. -/
theorem stream_eq_fields (id : Identifier) {dlc : Length} (data : Payload) (hdlc : dlc.toNat ≤ 8) :
    stream id dlc data = msbFirst id ++ msbFirst dlc ++ payloadBits data dlc.toNat := by
  rw [stream, streamLength, imageStream_payload _ hdlc, imageStream_header, imageId_frameImage, imageDlc_frameImage,
    imageData_frameImage]

/-! The checksum (R112, R115). -/

/-- Settles O24. The stream has no byte at or beyond the length. -/
theorem checksumIgnoresTail : Obligations.ChecksumIgnoresTail := by
  intro id dlc d₁ d₂ hdlc hbytes
  have hpayload : payloadBits d₁ dlc.toNat = payloadBits d₂ dlc.toNat := by
    apply List.flatMap_congr
    intro i hi
    rw [hbytes i (lt_of_mem_take_finRange hi)]
  rw [computeCrc15, computeCrc15, if_pos hdlc, if_pos hdlc, stream_eq_fields id d₁ hdlc, stream_eq_fields id d₂ hdlc,
    hpayload]

/-- Over equally long streams the LFSR is linear in its start value and the frame image together. -/
theorem crcSteps_imageStream_xor (c₁ c₂ : Crc) (h₁ h₂ : FrameImage) (n : Nat) :
    crcSteps (c₁ ^^^ c₂) (imageStream (h₁ ^^^ h₂) n) =
      crcSteps c₁ (imageStream h₁ n) ^^^ crcSteps c₂ (imageStream h₂ n) := by
  induction n with
  | zero => rfl
  | succ n ih =>
    rw [crcSteps_imageStream_succ, crcSteps_imageStream_succ, crcSteps_imageStream_succ, ih, BitVec.getLsbD_xor,
      crcStep_xor]

/-- Frame images XOR field by field. -/
theorem frameImage_xor (id₁ id₂ : Identifier) (dlc₁ dlc₂ : Length) (d₁ d₂ : Payload) :
    frameImage (id₁ ^^^ id₂) (dlc₁ ^^^ dlc₂) (d₁ ^^^ d₂) = frameImage id₁ dlc₁ d₁ ^^^ frameImage id₂ dlc₂ d₂ := by
  rw [frameImage, frameImage, frameImage, BitVec.xor_append (w := 11 + 4), BitVec.xor_append]

/-- Settles O25. The two frames' lengths cancel in the XOR of their images; the zero frame of that length puts it back. -/
theorem checksumLinear : Obligations.ChecksumLinear := by
  intro id₁ id₂ dlc d₁ d₂ hdlc
  have himage : frameImage (id₁ ^^^ id₂) dlc (d₁ ^^^ d₂) =
      frameImage id₁ dlc d₁ ^^^ frameImage id₂ dlc d₂ ^^^ frameImage 0 dlc 0 := by
    rw [← frameImage_xor, ← frameImage_xor, BitVec.xor_self, BitVec.zero_xor]
    simp
  have hstart : (0 : Crc) = 0 ^^^ 0 ^^^ 0 := rfl
  rw [computeCrc15_of_le hdlc, computeCrc15_of_le hdlc, computeCrc15_of_le hdlc, computeCrc15_of_le hdlc, himage,
    hstart, crcSteps_imageStream_xor, crcSteps_imageStream_xor]
  rfl

/-! The bit-serial route (R99, R116). -/

/-- The `CRC15` pseudo-operation clears the LFSR and sends the frame's stream. -/
theorem crc15_eq_stream (id : Identifier) {dlc : Length} (data : Payload) (hdlc : dlc.toNat ≤ 8) :
    crc15 id dlc data = .crcClr :: (stream id dlc data).map .crcBit := by
  simp [crc15, crcByte, crcBits_eq_map, stream_eq_fields id data hdlc, payloadBits, List.map_flatMap]

/-- With no run in progress, the edge of an operation's line runs the operation and leaves the lines after it (R98). -/
theorem step_of_operation {i : Instr} {is : List Instr} {rest : List Pins} {s : State} (hvalid : s.cfg.valid = true)
    (hbusy : s.busy = false) (hscript : s.script = scriptOf ((i :: is).map .op) ++ rest) :
    step s = exec i { s with script := scriptOf (is.map .op) ++ rest, edge := s.edge + 1 } := by
  have hpins : pins s = linePins (.op i) := pins_cons s _ _ hscript
  have hacc : Accepts i s := ⟨hvalid, by rw [hpins]; rfl, hbusy, by rw [hpins]; exact decode_encode i⟩
  rw [hacc.step_eq, passEdge, hscript]
  rfl

/-- CRC_BIT lines take their bits into the LFSR, an edge per bit. Both pulses are low already, as after any CRC command,
so only the LFSR moves. -/
theorem runEdges_crcBits {bits : List Bool} {rest : List Pins} {s : State} (hvalid : s.cfg.valid = true)
    (hbusy : s.busy = false) (hfValid : s.fValid = false) (herrLen : s.errLen = false)
    (hscript : s.script = scriptOf ((bits.map Instr.crcBit).map .op) ++ rest) :
    runEdges bits.length s =
      .next { s with script := rest, edge := s.edge + bits.length, crc := crcSteps s.crc bits } := by
  induction bits generalizing s with
  | nil =>
    have hrest : s.script = rest := hscript
    simp [← hrest]
  | cons b bs ih =>
    have hstep := (step_of_operation hvalid hbusy hscript).trans (crcBitEffect b _)
    calc runEdges (bs.length + 1) s
      _ = _ := runEdges_succ bs.length hstep
      _ = _ := ih hvalid hbusy rfl rfl rfl
      _ = _ := by simp [hfValid, herrLen, crcStep, Nat.add_assoc, Nat.add_comm 1]

/-- Settles O28. One edge clears the LFSR, and an edge per stream bit takes the stream in. -/
theorem bitSerialRouteComputesChecksum : Obligations.BitSerialRouteComputesChecksum := by
  intro id dlc data s rest hdlc hvalid hbusy hscript
  rw [crc15_eq_stream id data hdlc] at hscript
  have hedges : (stream id dlc data).length + 1 = 16 + 8 * dlc.toNat := by
    rw [stream, imageStream_length, streamLength]
    omega
  have hclear := (step_of_operation hvalid hbusy hscript).trans (crcClrEffect _)
  rw [← hedges]
  calc runEdges ((stream id dlc data).length + 1) s
    _ = _ := runEdges_succ _ hclear
    _ = _ := runEdges_crcBits hvalid hbusy rfl rfl rfl
    _ = _ := by simp [computeCrc15, hdlc, Nat.add_assoc, Nat.add_comm 1]

end Sys2Proof.Machine
end

section
/-!
PROOFS. The Frame Model (`41_frame_model.md` R130 to R134, R139): the masked payload, the frame of `build`, the edges of a
run, and BUILD as one transition.
-/

namespace Sys2Proof.Machine

/-! The masked payload and the frame made of it (R130, R139). -/

/-- The mask keeps the bytes below the length. -/
theorem payloadByte_maskPayload_of_lt {dlc : Length} (data : Payload) {i : Fin 8} (h : i.val < dlc.toNat) :
    payloadByte (maskPayload dlc data) i = payloadByte data i := by
  apply BitVec.eq_of_getLsbD_eq
  intro j _
  have hkept : 64 - 8 * dlc.toNat ≤ 56 - 8 * i.val + j := by omega
  rw [payloadByte_getLsbD, payloadByte_getLsbD, maskPayload_getLsbD, decide_eq_true hkept, Bool.and_true]

/-- Settles O22. -/
theorem maskPayloadBytes : Obligations.MaskPayloadBytes := by
  intro dlc data i _
  by_cases hi : i.val < dlc.toNat
  · rw [if_pos hi, payloadByte_maskPayload_of_lt data hi]
  · rw [if_neg hi, payloadByte_maskPayload_tail data (Nat.le_of_not_lt hi)]

/-- The checksum of the masked payload is the checksum of the payload as given: the mask keeps every byte it reads. -/
theorem computeCrc15_maskPayload (id : Identifier) {dlc : Length} (data : Payload) (hdlc : dlc.toNat ≤ 8) :
    computeCrc15 id dlc (maskPayload dlc data) = computeCrc15 id dlc data :=
  checksumIgnoresTail id dlc _ _ hdlc fun _ hi => payloadByte_maskPayload_of_lt data hi

/-- The lengths that raise InvalidLength (R231). -/
theorem lengthInvalid_iff {dlc : Length} : lengthInvalid dlc = true ↔ 8 < dlc.toNat := by
  rw [lengthInvalid, decide_eq_true_eq]

/-- `build` on a length a frame can have. -/
theorem build_of_le (id : Identifier) {dlc : Length} (data : Payload) (hdlc : dlc.toNat ≤ 8) :
    build id dlc data = .ok ⟨id, dlc, maskPayload dlc data, computeCrc15 id dlc data⟩ := by
  rw [build, if_neg (lengthInvalid_iff.not.mpr (Nat.not_lt.mpr hdlc)), computeCrc15_maskPayload id data hdlc]

/-- Settles O29. -/
theorem buildMakesFrame : Obligations.BuildMakesFrame := fun id _ data =>
  ⟨fun hlong => if_pos (lengthInvalid_iff.mpr hlong), build_of_le id data⟩

/-! The three edges of a BUILD (R131, R132, R133). -/

/-- A BUILD with a length a frame can have starts the run of its masked frame. -/
theorem exec_build_of_le (id : Identifier) {dlc : Length} (data : Payload) (s : State) (hdlc : dlc.toNat ≤ 8) :
    exec (.build id dlc data) s = .next (startRun id dlc (maskPayload dlc data) s) :=
  if_neg (lengthInvalid_iff.not.mpr (Nat.not_lt.mpr hdlc))

/-- Settles O30. -/
theorem buildStartsRun : Obligations.BuildStartsRun := fun id _ data s hdlc =>
  ⟨_, exec_build_of_le id data s hdlc, streamLength_toNat hdlc, rfl⟩

/-- Settles O12. The rule counts the stream from its end and `shiftBit_eq` from its start: hold bit `j` is stream bit
`78 - j`. -/
theorem shiftEdgeEffect : Obligations.ShiftEdgeEffect := by
  intro s j hvalid hrst hbusy hbits hcnt hj hindex
  have hlength : s.cnt.toNat + (78 - j) = streamLength (imageDlc s.hold) := by
    rw [streamLength, imageDlc]
    omega
  have hbit : shiftBit s.hold s.cnt = s.hold.getLsbD j := by
    rw [shiftBit_eq hlength (by omega), show 78 - (78 - j) = j by omega]
  refine ⟨_, step_of_atShiftEdge hvalid ⟨hrst, hbusy, hbits⟩ hcnt, ?count, ?frame⟩
  case count =>
    change (s.cnt - 1).toNat + 1 = s.cnt.toNat
    bv_omega
  case frame =>
    rw [← hbit]
    rfl

/-- Settles O14. -/
theorem latchEdgeEffect : Obligations.LatchEdgeEffect := fun _ hvalid hrst hbusy hcnt =>
  step_of_atLatchEdge hvalid ⟨hrst, hbusy, hcnt⟩

/-! A run from its accept edge to its latch edge, for any frame put into `hold` (R131 to R133, R210). -/

@[simp] theorem afterShifts_frame (k : Nat) (s : State) : (afterShifts k s).frame = s.frame := by
  induction k with
  | zero => rfl
  | succ k ih => exact ih

/-- No stream is longer than the frame image (R89). -/
theorem streamLength_le {dlc : Length} (hdlc : dlc.toNat ≤ 8) : streamLength dlc ≤ 79 := by
  rw [streamLength]
  omega

/-- An accept edge leaves the whole stream to go. -/
theorem startRun_cnt_toNat (id : Identifier) {dlc : Length} (data : Payload) (s : State) (hdlc : dlc.toNat ≤ 8) :
    (startRun id dlc data s).cnt.toNat = streamLength dlc := streamLength_toNat hdlc

/-- `k` shift edges into a run, the LFSR has taken `k` bits of the frame's stream and `cnt` has the rest to go; nothing
else has moved. -/
theorem afterShifts_startRun (id : Identifier) {dlc : Length} (data : Payload) (s : State) (hdlc : dlc.toNat ≤ 8) {k : Nat}
    (hk : k ≤ streamLength dlc) :
    afterShifts k (startRun id dlc data s) =
      { startRun id dlc data s with
        crc := crcSteps 0 (imageStream (frameImage id dlc data) k)
        cnt := BitVec.ofNat 7 (streamLength dlc - k) } := by
  induction k with
  | zero => rfl
  | succ k ih =>
    have hN := streamLength_le hdlc
    have hleft : (BitVec.ofNat 7 (streamLength dlc - k)).toNat = streamLength dlc - k := toNat_ofNat_of_lt (by omega)
    have hcnt : BitVec.ofNat 7 (streamLength dlc - k) - 1 = BitVec.ofNat 7 (streamLength dlc - (k + 1)) := by bv_omega
    have hbit : shiftBit (frameImage id dlc data) (BitVec.ofNat 7 (streamLength dlc - k)) =
        (frameImage id dlc data).getLsbD (78 - k) :=
      shiftBit_eq (by rw [hleft, imageDlc_frameImage]; omega) (by omega)
    rw [afterShifts, ih (by omega), crcSteps_imageStream_succ, ← hbit, ← hcnt]
    rfl

/-- When the run is over, the frame put into `hold` is done: all of its stream is in the LFSR. -/
theorem afterRun_startRun (id : Identifier) {dlc : Length} (data : Payload) (s : State) (hdlc : dlc.toNat ≤ 8) :
    afterRun (startRun id dlc data s) = frameDone ⟨id, dlc, data, computeCrc15 id dlc data⟩ s := by
  rw [afterRun, startRun_cnt_toNat id data s hdlc, afterShifts_startRun id data s hdlc (le_refl _), Nat.sub_self,
    computeCrc15_of_le hdlc]
  simp [latchEdge, frameDone, startRun]

/-- The run an accept edge starts, to its end: the stream's bits, and the latch edge. -/
theorem runEdges_startRun (id : Identifier) {dlc : Length} (data : Payload) {s : State} (hdlc : dlc.toNat ≤ 8)
    (hvalid : s.cfg.valid = true) (hrst : NoResetFor (streamLength dlc + 1) s) :
    runEdges (streamLength dlc + 1) (startRun id dlc data s) =
      .next (passEdges (streamLength dlc + 1) (frameDone ⟨id, dlc, data, computeCrc15 id dlc data⟩ s)) := by
  have hcnt := startRun_cnt_toNat id data s hdlc
  have hrun := runEdges_toEndOfRun (s := startRun id dlc data s) hvalid rfl (hcnt.trans_le (streamLength_le hdlc))
    (by rw [hcnt]; exact hrst)
  rwa [hcnt, afterRun_startRun id data s hdlc] at hrun

/-- Until the latch edge, `busy` is 1 and the frame ports show the previous frame. -/
theorem runEdges_startRun_busy (id : Identifier) {dlc : Length} (data : Payload) {s : State} (hdlc : dlc.toNat ≤ 8)
    (hvalid : s.cfg.valid = true) (hrst : NoResetFor (streamLength dlc) s) {k : Nat} (hk : k ≤ streamLength dlc) :
    ∃ t, runEdges k (startRun id dlc data s) = .next t ∧ t.busy = true ∧ t.frame = s.frame := by
  have hcnt := startRun_cnt_toNat id data s hdlc
  have hrun := runEdges_shifts (s := startRun id dlc data s) (k := k) hvalid rfl (hcnt.trans_le (streamLength_le hdlc))
    (hk.trans_eq hcnt.symm) fun j hj => hrst j (by omega)
  exact ⟨_, hrun, by simp, afterShifts_frame k _⟩

/-! BUILD as one transition (R134). -/

/-- A stretch of edges without reset, after its first edge. -/
theorem noResetFor_passEdge {n : Nat} {s : State} (h : NoResetFor (n + 1) s) : NoResetFor n (passEdge s) := by
  intro j hj
  rw [pinsAt_passEdge]
  exact h (j + 1) (by omega)

theorem passEdges_passEdge (k : Nat) (s : State) : passEdges k (passEdge s) = passEdges (k + 1) s := by
  simp [passEdges, passEdge, Nat.add_assoc, Nat.add_comm 1]

/-- A finished frame does not touch the host's side. -/
theorem frameDone_passEdge (f : Frame) (s : State) : frameDone f (passEdge s) = passEdge (frameDone f s) := rfl

/-- Settles O32. The accept edge starts the run of the masked frame; the run's edges end with that frame done. -/
theorem buildAsOneTransition : Obligations.BuildAsOneTransition := by
  intro id dlc data s hdlc hacc hrst
  have hlength : streamLength dlc = 15 + 8 * dlc.toNat := rfl
  rw [show 17 + 8 * dlc.toNat = streamLength dlc + 1 + 1 by omega] at hrst ⊢
  have hrun : NoResetFor (streamLength dlc + 1) (passEdge s) := noResetFor_passEdge hrst
  have hstep : step s = .next (startRun id dlc (maskPayload dlc data) (passEdge s)) :=
    hacc.step_eq.trans (exec_build_of_le id data _ hdlc)
  refine ⟨⟨_, build_of_le id data hdlc, ?whole⟩, fun k hpos hk => ?earlier⟩
  case whole =>
    rw [runEdges_succ _ hstep, runEdges_startRun (s := passEdge s) id _ hdlc hacc.configured hrun,
      computeCrc15_maskPayload id data hdlc, frameDone_passEdge, passEdges_passEdge]
    rfl
  case earlier =>
    obtain ⟨k, rfl⟩ := Nat.exists_eq_add_of_le' hpos
    rw [runEdges_succ k hstep]
    exact runEdges_startRun_busy (s := passEdge s) id _ hdlc hacc.configured (fun j hj => hrun j (by omega)) (by omega)

end Sys2Proof.Machine
end

section
/-!
PROOFS. The Vehicle Simulator (`42_vehicle_simulator.md` R152 to R166): where a law's values lie, so that none wraps when it
is narrowed; what the registers show after each form of tick; and the domains, which every edge keeps.
-/

namespace Sys2Proof.Machine

/-- With floor 0 the step alone decides (R10). -/
theorem decFloor_zero (v s : Nat) : decFloor v s 0 = if s ≤ v then v - s else 0 := by
  rw [decFloor, Nat.zero_add]

/-! Where a law's values lie (R165, R166). One bound serves twice: with the registers' capacities as ceilings it holds in
every state and says that nothing wraps; with the ceilings of the domains it says that a tick stays in them. -/

/-- A law's values are at most the ceilings `rpmTop`, `speedTop` and 100 percent, and its rpm is at least `IDLE_RPM`. -/
structure LawResult.Within (c : Cfg) (rpmTop speedTop : Nat) (r : LawResult) : Prop where
  rpm_ge : c.idleRpm ≤ r.rpm
  rpm_le : r.rpm ≤ rpmTop
  speed_le : r.speed ≤ speedTop
  throttle_le : r.throttle ≤ 100

/-- The ceilings cover `RPM_MAX` and `SPEED_MAX`, and the vehicle is under them before the tick. -/
structure Vehicle.Under (c : Cfg) (rpmTop speedTop : Nat) (v : Vehicle) : Prop where
  rpmMax_le : c.rpmMax ≤ rpmTop
  speedMax_le : c.speedMax ≤ speedTop
  rpm_le : v.rpm.toNat ≤ rpmTop
  speed_le : v.speed.toNat ≤ speedTop

/-- Every vehicle is under the capacities of its registers (R22, R23). -/
theorem Vehicle.under_capacity {c : Cfg} (hvalid : c.valid = true) (v : Vehicle) : v.Under c 65535 255 := by
  have htable := (configurationTable c).mp hvalid
  exact ⟨by omega, by omega, by omega, by omega⟩

/-- Linear decay of rpm to `IDLE_RPM` and of speed to standstill: what the laws of Brake, TICK.MBRK and TICK.MCST have in
common (R156, R163, R164). -/
def decayLaw (c : Cfg) (v : Vehicle) (rpmStep speedStep : Nat) (brake exit : Bool) : LawResult :=
  ⟨decFloor v.rpm.toNat rpmStep c.idleRpm, decFloor v.speed.toNat speedStep 0, 0, brake, exit⟩

theorem brakeLaw_eq_decayLaw (c : Cfg) (v : Vehicle) :
    brakeLaw c v = decayLaw c v c.brakeRpmStep c.brakeSpeedStep true (brakeLaw c v).exit := rfl

theorem mbrkLaw_eq_decayLaw (c : Cfg) (v : Vehicle) :
    mbrkLaw c v = decayLaw c v c.brakeRpmStep c.brakeSpeedStep true false := rfl

theorem mcstLaw_eq_decayLaw (c : Cfg) (v : Vehicle) :
    mcstLaw c v = decayLaw c v c.coastRpmStep c.coastSpeedStep false false := rfl

/-- Decay never raises the speed. -/
theorem decayLaw_speed_le (c : Cfg) (v : Vehicle) (rpmStep speedStep : Nat) (brake exit : Bool) :
    (decayLaw c v rpmStep speedStep brake exit).speed ≤ v.speed.toNat := decFloor_le le_rfl (Nat.zero_le _)

section Bounds

variable {c : Cfg} {v : Vehicle} {rpmTop speedTop : Nat}

/-- Linear decay keeps to the ceilings. -/
theorem decayLaw_within (hvalid : c.valid = true) (hv : v.Under c rpmTop speedTop) (rpmStep speedStep : Nat)
    (brake exit : Bool) : (decayLaw c v rpmStep speedStep brake exit).Within c rpmTop speedTop where
  rpm_ge := decFloor_ge _ _ _
  rpm_le := by
    have htable := (configurationTable c).mp hvalid
    have hmax := hv.rpmMax_le
    exact decFloor_le hv.rpm_le (by omega)
  speed_le := decFloor_le hv.speed_le (Nat.zero_le _)
  throttle_le := Nat.zero_le _

/-- The clamped rpm of the two accelerating laws (R154, R162). -/
theorem poweredRpm_mem (hvalid : c.valid = true) (throttle : Nat) :
    c.idleRpm ≤ poweredRpm c throttle ∧ poweredRpm c throttle ≤ c.rpmMax := by
  have htable := (configurationTable c).mp hvalid
  exact ⟨clamp_ge (by omega), clamp_le (by omega)⟩

theorem acceleratedSpeed_le (hvalid : c.valid = true) (hv : v.Under c rpmTop speedTop) : acceleratedSpeed c v ≤ speedTop := by
  have htable := (configurationTable c).mp hvalid
  obtain ⟨-, hmax, -, hspeed⟩ := hv
  unfold acceleratedSpeed
  split <;> omega

/-- The law of every phase keeps to the ceilings (R153 to R156). -/
theorem phaseLaw_within (hvalid : c.valid = true) (hv : v.Under c rpmTop speedTop) :
    (phaseLaw c v).Within c rpmTop speedTop := by
  have htable := (configurationTable c).mp hvalid
  have hmax := hv.rpmMax_le
  unfold phaseLaw
  cases v.phase with
  | idle => exact ⟨le_rfl, show c.idleRpm ≤ rpmTop by omega, hv.speed_le, Nat.zero_le _⟩
  | accelerate =>
    obtain ⟨hge, hle⟩ := poweredRpm_mem hvalid (rampedThrottle c v)
    have hcap : rampedThrottle c v ≤ c.accelThrottleCap := Nat.min_le_right _ _
    exact ⟨hge, hle.trans hmax, acceleratedSpeed_le hvalid hv, hcap.trans (by omega)⟩
  | cruise =>
    exact ⟨show c.idleRpm ≤ c.cruiseRpm by omega, show c.cruiseRpm ≤ rpmTop by omega, hv.speed_le,
      show c.cruiseThrottle ≤ 100 by omega⟩
  | brake =>
    rw [brakeLaw_eq_decayLaw]
    exact decayLaw_within hvalid hv _ _ _ _

/-- The law of TICK.MACC keeps to the ceilings (R162). -/
theorem maccLaw_within (hvalid : c.valid = true) (hv : v.Under c rpmTop speedTop) (thrIn : BitVec 7) :
    (maccLaw c v thrIn).Within c rpmTop speedTop := by
  obtain ⟨hge, hle⟩ := poweredRpm_mem hvalid (sampledThrottle thrIn)
  exact ⟨hge, hle.trans hv.rpmMax_le, (Nat.min_le_right _ _).trans hv.speedMax_le, sampledThrottle_le thrIn⟩

/-- The law of TICK.MBRK keeps to the ceilings (R163). -/
theorem mbrkLaw_within (hvalid : c.valid = true) (hv : v.Under c rpmTop speedTop) :
    (mbrkLaw c v).Within c rpmTop speedTop := by
  rw [mbrkLaw_eq_decayLaw]
  exact decayLaw_within hvalid hv _ _ _ _

/-- The law of TICK.MCST keeps to the ceilings (R164). -/
theorem mcstLaw_within (hvalid : c.valid = true) (hv : v.Under c rpmTop speedTop) :
    (mcstLaw c v).Within c rpmTop speedTop := by
  rw [mcstLaw_eq_decayLaw]
  exact decayLaw_within hvalid hv _ _ _ _

end Bounds

/-! What the registers show after a tick (R157 to R164). -/

/-- The signal registers of `v` hold a law's values unwrapped. -/
structure Vehicle.Shows (v : Vehicle) (r : LawResult) : Prop where
  rpm_eq : v.rpm.toNat = r.rpm
  speed_eq : v.speed.toNat = r.speed
  throttle_eq : v.throttle.toNat = r.throttle
  brake_eq : v.brake = r.brake

/-- Narrowing loses nothing of values inside the register widths (R165). -/
theorem narrow_shows {c : Cfg} {r : LawResult} (hr : r.Within c 65535 255) (v : Vehicle) (p : Phase) (k : Nat) :
    (narrow c v r p k).Shows r where
  rpm_eq := toNat_ofNat_of_lt (Nat.lt_succ_of_le hr.rpm_le)
  speed_eq := toNat_ofNat_of_lt (Nat.lt_succ_of_le hr.speed_le)
  throttle_eq := toNat_ofNat_of_lt (hr.throttle_le.trans_lt (by decide))
  brake_eq := rfl

theorem narrow_ticks_toNat {k : Nat} (hk : k ≤ 65535) (c : Cfg) (v : Vehicle) (r : LawResult) (p : Phase) :
    (narrow c v r p k).ticks.toNat = k := toNat_ofNat_of_lt (Nat.lt_succ_of_le hk)

/-- From any coolant a signed byte holds, the coolant law stays in the byte (R158, R165). -/
theorem narrow_coolant_toInt {c : Cfg} (hvalid : c.valid = true) (v : Vehicle) (r : LawResult) (p : Phase) (k : Nat) :
    (narrow c v r p k).coolant.toInt = coolantLaw c v.coolant.toInt := by
  have htable := (configurationTable c).mp hvalid
  have hlo : -128 ≤ v.coolant.toInt := BitVec.le_toInt v.coolant
  have hhi : v.coolant.toInt < 128 := BitVec.toInt_lt
  have hmem : -128 ≤ coolantLaw c v.coolant.toInt ∧ coolantLaw c v.coolant.toInt ≤ 127 := by
    unfold coolantLaw
    split <;> omega
  exact toInt_ofInt_of_mem hmem.1 hmem.2

theorem advanceAuto_shows {c : Cfg} (hvalid : c.valid = true) (v : Vehicle) : (advanceAuto c v).Shows (phaseLaw c v) := by
  have hr := phaseLaw_within hvalid (v.under_capacity hvalid)
  rw [advanceAuto_eq]
  split
  · exact narrow_shows hr _ _ _
  · exact narrow_shows hr _ _ _

/-- The phase and the counter after an autonomous tick (R152, R157). -/
theorem advanceAuto_transition (c : Cfg) (v : Vehicle) :
    if (phaseLaw c v).exit = true
    then (advanceAuto c v).phase = nextPhase v.phase ∧ (advanceAuto c v).ticks = 0
    else (advanceAuto c v).phase = v.phase ∧ (advanceAuto c v).ticks.toNat = countedTicks v := by
  rw [advanceAuto_eq]
  split
  · exact ⟨rfl, rfl⟩
  · exact ⟨rfl, narrow_ticks_toNat (countedTicks_le v) _ _ _ _⟩

/-! The law of each phase, chosen by the phase held before the tick (R160). -/

theorem phaseLaw_of_idle {c : Cfg} {v : Vehicle} (h : v.phase = .idle) : phaseLaw c v = idleLaw c v := by
  rw [phaseLaw, h]

theorem phaseLaw_of_accelerate {c : Cfg} {v : Vehicle} (h : v.phase = .accelerate) : phaseLaw c v = accelerateLaw c v := by
  rw [phaseLaw, h]

theorem phaseLaw_of_cruise {c : Cfg} {v : Vehicle} (h : v.phase = .cruise) : phaseLaw c v = cruiseLaw c v := by
  rw [phaseLaw, h]

theorem phaseLaw_of_brake {c : Cfg} {v : Vehicle} (h : v.phase = .brake) : phaseLaw c v = brakeLaw c v := by
  rw [phaseLaw, h]

/-! The four TICK forms at their accept edge (R210). -/

@[simp] theorem tick_veh (advance : Cfg → Vehicle → Vehicle) (s : State) : (tick advance s).veh = advance s.cfg s.veh := rfl

/-- A TICK form advances the vehicle and answers. -/
theorem exists_exec_tick {i : Instr} (h : isTick i = true) (s : State) :
    ∃ advance, tickAdvance i = some advance ∧ exec i s = .next (tick advance s) := by
  cases i with
  | tickAuto | tickMacc | tickMbrk | tickMcst => exact ⟨_, rfl, rfl⟩
  | _ => cases h

/-- Every form of tick applies the coolant law (R158). -/
theorem coolant_of_tickAdvance {i : Instr} {advance : Cfg → Vehicle → Vehicle} (h : tickAdvance i = some advance)
    {c : Cfg} (hvalid : c.valid = true) (v : Vehicle) :
    (advance c v).coolant.toInt = coolantLaw c v.coolant.toInt := by
  cases i with
  | tickAuto =>
    cases h
    rw [advanceAuto_eq]
    split
    · exact narrow_coolant_toInt hvalid _ _ _ _
    · exact narrow_coolant_toInt hvalid _ _ _ _
  | tickMacc | tickMbrk | tickMcst =>
    cases h
    exact narrow_coolant_toInt hvalid _ _ _ _
  | _ => cases h

/-! The domains (R166). -/

/-- The domains speak of the configuration and the vehicle alone. -/
theorem VehicleInDomain.congr {s t : State} (h : VehicleInDomain s) (hcfg : t.cfg = s.cfg) (hveh : t.veh = s.veh) :
    VehicleInDomain t := by
  constructor <;> simp only [hcfg, hveh]
  exacts [h.rpm_ge, h.rpm_le, h.speed_le, h.throttle_le, h.coolant_ge, h.coolant_le, h.idle_still, h.steer_const,
    h.idle_ticks, h.cruise_ticks]

/-- A vehicle in its domains is under their ceilings. -/
theorem VehicleInDomain.under {s : State} (h : VehicleInDomain s) : s.veh.Under s.cfg s.cfg.rpmMax s.cfg.speedMax :=
  ⟨le_rfl, le_rfl, h.rpm_le, h.speed_le⟩

/-- A law that keeps to the domains' ceilings keeps to the registers' capacities. -/
theorem LawResult.Within.capacity {c : Cfg} {r : LawResult} (hvalid : c.valid = true) (hr : r.Within c c.rpmMax c.speedMax) :
    r.Within c 65535 255 := by
  have htable := (configurationTable c).mp hvalid
  exact ⟨hr.rpm_ge, hr.rpm_le.trans (by omega), hr.speed_le.trans (by omega), hr.throttle_le⟩

/-- A tick whose law keeps to the domains' ceilings stays in the domains, given what R166 (e) and (g) ask of the next phase
and counter. -/
theorem VehicleInDomain.narrow {s : State} {r : LawResult} {p : Phase} {k : Nat} (h : VehicleInDomain s)
    (hvalid : s.cfg.valid = true) (hr : r.Within s.cfg s.cfg.rpmMax s.cfg.speedMax) (hk : k ≤ 65535)
    (hidle : p = .idle → r.speed = 0 ∧ k ≤ s.cfg.idleDwellTicks) (hcruise : p = .cruise → k ≤ s.cfg.cruiseDwellTicks) :
    VehicleInDomain { s with veh := Machine.narrow s.cfg s.veh r p k } := by
  obtain ⟨hrpm, hspeed, hthrottle, -⟩ := narrow_shows (hr.capacity hvalid) s.veh p k
  have hticks := narrow_ticks_toNat hk s.cfg s.veh r p
  have hcoolant := narrow_coolant_toInt hvalid s.veh r p k
  obtain ⟨hrises, hceiling⟩ := coolantLaw_mem h.coolant_le
  exact {
    rpm_ge := hr.rpm_ge.trans_eq hrpm.symm
    rpm_le := hrpm.trans_le hr.rpm_le
    speed_le := hspeed.trans_le hr.speed_le
    throttle_le := hthrottle.trans_le hr.throttle_le
    coolant_ge := (h.coolant_ge.trans hrises).trans_eq hcoolant.symm
    coolant_le := hcoolant.trans_le hceiling
    idle_still := fun hp => BitVec.eq_of_toNat_eq (hspeed.trans (hidle hp).1)
    steer_const := h.steer_const
    idle_ticks := fun hp => hticks.trans_le (hidle hp).2
    cruise_ticks := fun hp => hticks.trans_le (hcruise hp) }

/-- Idle is entered from Brake at speed 0 only, and it and Cruise are left as soon as the counter exceeds the dwell. -/
theorem VehicleInDomain.advanceAuto {s : State} (h : VehicleInDomain s) (hvalid : s.cfg.valid = true) :
    VehicleInDomain { s with veh := Machine.advanceAuto s.cfg s.veh } := by
  have hr := phaseLaw_within hvalid h.under
  rw [advanceAuto_eq]
  split
  next hexit =>
    refine h.narrow hvalid hr (Nat.zero_le _) (fun hp => ⟨?_, Nat.zero_le _⟩) (fun _ => Nat.zero_le _)
    have hbrake : s.veh.phase = .brake := by
      cases hphase : s.veh.phase <;> simp [hphase, nextPhase] at hp ⊢
    rw [phaseLaw_of_brake hbrake] at hexit ⊢
    exact of_decide_eq_true hexit
  next hstay =>
    refine h.narrow hvalid hr (countedTicks_le _) (fun hp => ?_) (fun hp => ?_)
    · rw [phaseLaw_of_idle hp] at hstay ⊢
      have hspeed : s.veh.speed.toNat = 0 := by simp [h.idle_still hp]
      exact ⟨hspeed, by simpa [idleLaw] using hstay⟩
    · rw [phaseLaw_of_cruise hp] at hstay
      simpa [cruiseLaw] using hstay

/-- The manual forms go to Brake, of which R166 (e) and (g) ask nothing (R161). -/
theorem VehicleInDomain.manual {s : State} {r : LawResult} (h : VehicleInDomain s) (hvalid : s.cfg.valid = true)
    (hr : r.Within s.cfg s.cfg.rpmMax s.cfg.speedMax) : VehicleInDomain { s with veh := Machine.manual s.cfg s.veh r } :=
  h.narrow (p := .brake) (k := 0) hvalid hr (Nat.zero_le _) (fun hp => nomatch hp) (fun hp => nomatch hp)

/-- Every form of tick stays in the domains. -/
theorem VehicleInDomain.advance {s : State} {i : Instr} {advance : Cfg → Vehicle → Vehicle} (h : VehicleInDomain s)
    (hvalid : s.cfg.valid = true) (hadv : tickAdvance i = some advance) :
    VehicleInDomain { s with veh := advance s.cfg s.veh } := by
  cases i with
  | tickAuto =>
    cases hadv
    exact h.advanceAuto hvalid
  | tickMacc thrIn =>
    cases hadv
    exact h.manual hvalid (maccLaw_within hvalid h.under thrIn)
  | tickMbrk =>
    cases hadv
    exact h.manual hvalid (mbrkLaw_within hvalid h.under)
  | tickMcst =>
    cases hadv
    exact h.manual hvalid (mcstLaw_within hvalid h.under)
  | _ => cases hadv

/-- Settles O43. Reset writes values inside the domains; a tick stays in them, and its coolant law does not lower a coolant
that is not above the ceiling; no other edge writes the vehicle. -/
theorem vehicleDomainsKept : Obligations.VehicleDomainsKept := by
  intro s t hdomain hstep
  have hvalid := (step_next_cases hstep).1
  cases step_edgeTo hstep with
  | reset hrst => exact ⟨vehicleInDomain_ofReset hvalid _ _, fun hno => by simp [hrst] at hno⟩
  | tick _ hadv =>
    refine ⟨(hdomain.advance hvalid hadv).congr rfl rfl, fun _ => ?_⟩
    rw [tick_veh, passEdge_cfg, passEdge_veh, coolant_of_tickAdvance hadv hvalid]
    exact (coolantLaw_mem hdomain.coolant_le).1
  | latch | shift | nop | crcClr | crcBit | badBuild | build => exact ⟨hdomain.congr rfl rfl, fun _ => le_rfl⟩

end Sys2Proof.Machine
end

section
/-!
PROOFS. The laws of the ticks as the vehicle registers show them (`42_vehicle_simulator.md` R152 to R164, R167 (d)).
-/

namespace Sys2Proof.Machine

/-! The four phases (R153 to R156). The model's own names of the laws are `Machine.idleLaw` and so on; the theorems that
settle the statements of the same names stand in a namespace of their own. -/

namespace Simulator

/-- Settles O34. -/
theorem idleLaw : Obligations.IdleLaw := by
  intro s hvalid hphase
  obtain ⟨hrpm, hspeed, hthrottle, hbrake⟩ := advanceAuto_shows hvalid s.veh
  have hnext := advanceAuto_transition s.cfg s.veh
  rw [phaseLaw_of_idle hphase] at hrpm hspeed hthrottle hbrake hnext
  refine ⟨_, rfl, hrpm, BitVec.eq_of_toNat_eq hthrottle, hbrake, BitVec.eq_of_toNat_eq hspeed, ?_⟩
  simpa [Machine.idleLaw, hphase, nextPhase, countedTicks] using hnext

/-- Settles O35. The exit test reads the new speed, which the register shows unwrapped. -/
theorem accelerateLaw : Obligations.AccelerateLaw := by
  intro s hvalid hphase
  obtain ⟨hrpm, hspeed, hthrottle, hbrake⟩ := advanceAuto_shows hvalid s.veh
  have hnext := advanceAuto_transition s.cfg s.veh
  rw [phaseLaw_of_accelerate hphase] at hrpm hspeed hthrottle hbrake hnext
  refine ⟨_, rfl, hthrottle, ?_, hspeed, hbrake, ?_⟩
  · rw [tick_veh, hthrottle]
    exact hrpm
  · rw [tick_veh, hspeed]
    simpa [Machine.accelerateLaw, hphase, nextPhase, countedTicks] using hnext

/-- Settles O36. -/
theorem cruiseLaw : Obligations.CruiseLaw := by
  intro s hvalid hphase
  obtain ⟨hrpm, hspeed, hthrottle, hbrake⟩ := advanceAuto_shows hvalid s.veh
  have hnext := advanceAuto_transition s.cfg s.veh
  rw [phaseLaw_of_cruise hphase] at hrpm hspeed hthrottle hbrake hnext
  refine ⟨_, rfl, hthrottle, hrpm, BitVec.eq_of_toNat_eq hspeed, hbrake, ?_⟩
  simpa [Machine.cruiseLaw, hphase, nextPhase, countedTicks] using hnext

/-- Settles O37. The exit test reads the new speed, which the register shows unwrapped. -/
theorem brakeLaw : Obligations.BrakeLaw := by
  intro s hvalid hphase
  obtain ⟨hrpm, hspeed, hthrottle, hbrake⟩ := advanceAuto_shows hvalid s.veh
  have hnext := advanceAuto_transition s.cfg s.veh
  rw [phaseLaw_of_brake hphase] at hrpm hspeed hthrottle hbrake hnext
  have hstill : (advanceAuto s.cfg s.veh).speed = 0 ↔ decFloor s.veh.speed.toNat s.cfg.brakeSpeedStep 0 = 0 := by
    rw [BitVec.toNat_eq, hspeed]
    rfl
  refine ⟨_, rfl, BitVec.eq_of_toNat_eq hthrottle, hbrake, hrpm, hspeed.trans (decFloor_zero _ _), ?_⟩
  simp only [tick_veh, hstill]
  simpa [Machine.brakeLaw, hphase, nextPhase, countedTicks] using hnext

end Simulator

/-! The manual forms, the coolant and the steering (R158, R159, R161 to R164). -/

/-- Settles O38. -/
theorem manualAccelerateLaw : Obligations.ManualAccelerateLaw := by
  intro thrIn s hvalid
  obtain ⟨hrpm, hspeed, hthrottle, hbrake⟩ :=
    narrow_shows (maccLaw_within hvalid (s.veh.under_capacity hvalid) thrIn) s.veh .brake 0
  exact ⟨_, rfl, hthrottle, hrpm, hspeed, narrow_coolant_toInt hvalid _ _ _ _, rfl, hbrake, rfl, rfl⟩

/-- A manual form whose law is linear decay: what R163 and R164 have in common. -/
theorem manual_decayLaw {c : Cfg} (hvalid : c.valid = true) (v : Vehicle) (rpmStep speedStep : Nat) (brake exit : Bool) :
    let v' := manual c v (decayLaw c v rpmStep speedStep brake exit)
    v'.throttle = 0 ∧ v'.brake = brake ∧
      v'.rpm.toNat = decFloor v.rpm.toNat rpmStep c.idleRpm ∧
      v'.speed.toNat = (if speedStep ≤ v.speed.toNat then v.speed.toNat - speedStep else 0) ∧
      v'.coolant.toInt = coolantLaw c v.coolant.toInt ∧ v'.steer = v.steer ∧ v'.phase = .brake ∧ v'.ticks = 0 := by
  obtain ⟨hrpm, hspeed, hthrottle, hbrake⟩ :=
    narrow_shows (decayLaw_within hvalid (v.under_capacity hvalid) rpmStep speedStep brake exit) v .brake 0
  exact ⟨BitVec.eq_of_toNat_eq hthrottle, hbrake, hrpm, hspeed.trans (decFloor_zero _ _),
    narrow_coolant_toInt hvalid _ _ _ _, rfl, rfl, rfl⟩

/-- Settles O39. -/
theorem manualBrakeLaw : Obligations.ManualBrakeLaw := fun s hvalid =>
  ⟨_, rfl, manual_decayLaw hvalid s.veh s.cfg.brakeRpmStep s.cfg.brakeSpeedStep true false⟩

/-- Settles O40. -/
theorem manualCoastLaw : Obligations.ManualCoastLaw := fun s hvalid =>
  ⟨_, rfl, manual_decayLaw hvalid s.veh s.cfg.coastRpmStep s.cfg.coastSpeedStep false false⟩

/-- Settles O41. -/
theorem coolantAndSteeringLaw : Obligations.CoolantAndSteeringLaw := by
  intro i s hvalid hi
  obtain ⟨advance, hadv, hexec⟩ := exists_exec_tick hi s
  exact ⟨_, hexec, coolant_of_tickAdvance hadv hvalid s.veh, steer_of_tickAdvance hadv s.cfg s.veh⟩

/-! Where the speed rises (R167 (d)). -/

/-- Of the phases' laws only Accelerate raises the speed. -/
theorem phaseLaw_speed_le {v : Vehicle} (c : Cfg) (h : v.phase ≠ .accelerate) : (phaseLaw c v).speed ≤ v.speed.toNat := by
  unfold phaseLaw
  cases hphase : v.phase with
  | accelerate => exact absurd hphase h
  | idle | cruise => exact le_rfl
  | brake => exact decayLaw_speed_le _ _ _ _ _ _

/-- A manual form whose law is linear decay does not raise the speed. -/
theorem manual_decayLaw_speed_le {c : Cfg} (hvalid : c.valid = true) (v : Vehicle) (rpmStep speedStep : Nat)
    (brake exit : Bool) : (manual c v (decayLaw c v rpmStep speedStep brake exit)).speed.toNat ≤ v.speed.toNat := by
  have hwithin := decayLaw_within hvalid (v.under_capacity hvalid) rpmStep speedStep brake exit
  exact (narrow_shows hwithin v .brake 0).speed_eq.trans_le (decayLaw_speed_le _ _ _ _ _ _)

/-- A tick that raises the speed is TICK.AUTO in Accelerate or TICK.MACC. -/
theorem tickAdvance_of_speed_lt {i : Instr} {advance : Cfg → Vehicle → Vehicle} (hadv : tickAdvance i = some advance)
    {c : Cfg} {v : Vehicle} (hvalid : c.valid = true) (hrise : v.speed.toNat < (advance c v).speed.toNat) :
    (i = .tickAuto ∧ v.phase = .accelerate) ∨ ∃ thrIn, i = .tickMacc thrIn := by
  cases i with
  | tickMacc thrIn => exact .inr ⟨thrIn, rfl⟩
  | tickAuto =>
    cases hadv
    refine .inl ⟨rfl, ?_⟩
    by_contra hphase
    rw [(advanceAuto_shows hvalid v).speed_eq] at hrise
    exact (phaseLaw_speed_le c hphase).not_gt hrise
  | tickMbrk | tickMcst =>
    cases hadv
    exact absurd hrise (manual_decayLaw_speed_le hvalid v _ _ _ _).not_gt
  | _ => cases hadv

/-- Settles O44. Reset writes speed 0, and outside a tick the speed holds. -/
theorem speedRisesOnlyAccelerating : Obligations.SpeedRisesOnlyAccelerating := by
  intro s t hstep hrise
  have hvalid := (step_next_cases hstep).1
  cases step_edgeTo hstep with
  | reset => exact absurd hrise (Nat.not_lt_zero _)
  | tick hacc hadv =>
    obtain ⟨rfl, hphase⟩ | ⟨thrIn, rfl⟩ := tickAdvance_of_speed_lt hadv hvalid hrise
    · exact .inl ⟨hacc, hphase⟩
    · exact .inr ⟨thrIn, hacc⟩
  | latch | shift | nop | crcClr | crcBit | badBuild | build => exact absurd hrise (lt_irrefl _)

end Sys2Proof.Machine
end

section
/-!
PROOFS. The autonomous drive cycle (`42_vehicle_simulator.md` R167 (a), (b)): where in the cycle a vehicle is, that a tick moves
it one place on, and the phase at each place.
-/

namespace Sys2Proof.Machine

/-! The blocks (R167 (b)). -/

theorem ceilDiv_le_iff {a b k : Nat} (hb : 1 ≤ b) : ceilDiv a b ≤ k ↔ a ≤ k * b := by
  rw [Nat.mul_comm]
  exact ceilDiv_le_iff_le_mul hb

/-- Place `k` of a ramp of `a` in steps of `b` is not its last while one more step falls short. -/
theorem succ_lt_rampBlock_iff {a b : Nat} (hb : 1 ≤ b) (k : Nat) :
    k + 1 < max 1 (ceilDiv a b) ↔ (k + 1) * b < a := by
  have hceil := ceilDiv_le_iff (a := a) (k := k + 1) hb
  omega

/-! No block is empty (R167 (a)). -/

theorem idleBlock_pos (c : Cfg) : 0 < idleBlock c := Nat.succ_pos _
theorem accelerateBlock_pos (c : Cfg) : 0 < accelerateBlock c := Nat.le_max_left _ _
theorem cruiseBlock_pos (c : Cfg) : 0 < cruiseBlock c := Nat.succ_pos _
theorem brakeBlock_pos (c : Cfg) : 0 < brakeBlock c := Nat.le_max_left _ _

/-! The blocks with a dwell end before the counter saturates (R7, R152). -/

theorem idleBlock_le {c : Cfg} (hvalid : c.valid = true) : idleBlock c ≤ 65535 := by
  obtain ⟨hdwell, -⟩ := (configurationTable c).mp hvalid
  exact Nat.succ_le_succ hdwell

theorem cruiseBlock_le {c : Cfg} (hvalid : c.valid = true) : cruiseBlock c ≤ 65535 := by
  obtain ⟨-, -, -, hdwell, -⟩ := (configurationTable c).mp hvalid
  exact Nat.succ_le_succ hdwell

/-! The places of the cycle. -/

/-- The vehicle is `m` ticks into an autonomous cycle: in a block with a dwell the counter says how far, in a ramp the speed
does. -/
inductive CyclePlace (c : Cfg) (v : Vehicle) (m : Nat) : Prop where
  | idle (hphase : v.phase = .idle) (hspeed : v.speed.toNat = 0) (hticks : v.ticks.toNat = m) (hm : m < idleBlock c)
  | accelerate (k : Nat) (hphase : v.phase = .accelerate)
      (hspeed : v.speed.toNat = min (k * c.accelSpeedStep) c.accelTargetSpeed)
      (hk : k < accelerateBlock c) (hm : m = idleBlock c + k)
  | cruise (k : Nat) (hphase : v.phase = .cruise) (hspeed : v.speed.toNat = c.accelTargetSpeed)
      (hticks : v.ticks.toNat = k) (hk : k < cruiseBlock c) (hm : m = idleBlock c + accelerateBlock c + k)
  | brake (k : Nat) (hphase : v.phase = .brake) (hspeed : v.speed.toNat = c.accelTargetSpeed - k * c.brakeSpeedStep)
      (hk : k < brakeBlock c) (hm : m = idleBlock c + accelerateBlock c + cruiseBlock c + k)

/-- The vehicle's phase is the one the block lengths give at its place. -/
theorem CyclePlace.phase_eq {c : Cfg} {v : Vehicle} {m : Nat} (h : CyclePlace c v m) : v.phase = cyclePhase c m := by
  unfold cyclePhase
  cases h with
  | idle hphase _ _ hm => rw [hphase, if_pos hm]
  | accelerate k hphase _ hk hm => rw [hphase, if_neg (by omega), if_pos (by omega)]
  | cruise k hphase _ _ hk hm => rw [hphase, if_neg (by omega), if_neg (by omega), if_pos (by omega)]
  | brake k hphase _ hk hm => rw [hphase, if_neg (by omega), if_neg (by omega), if_neg (by omega)]

theorem CyclePlace.lt_cycleTicks {c : Cfg} {v : Vehicle} {m : Nat} (h : CyclePlace c v m) : m < cycleTicks c := by
  have haccelerate := accelerateBlock_pos c
  have hcruise := cruiseBlock_pos c
  have hbrake := brakeBlock_pos c
  unfold cycleTicks
  cases h <;> omega

/-! One tick from a place of each block: one place on in the block, or the first place of the next. -/

section Tick

variable {s t : State} {k : Nat}

/-- The counter does not saturate within a dwell (R152). -/
theorem counted_eq {ticks : BitVec 16} (hticks : ticks.toNat = k) (hk : k < 65535) : min (ticks.toNat + 1) 65535 = k + 1 := by
  omega

/-- Below the dwell the counter counts, at the dwell Idle is left for the foot of the speed ramp (R153). -/
theorem cyclePlace_of_idle (hvalid : s.cfg.valid = true) (hexec : exec .tickAuto s = .next t)
    (hphase : s.veh.phase = .idle) (hspeed : s.veh.speed.toNat = 0) (hticks : s.veh.ticks.toNat = k)
    (hk : k < idleBlock s.cfg) : CyclePlace s.cfg t.veh (k + 1) := by
  have hblock : idleBlock s.cfg = s.cfg.idleDwellTicks + 1 := rfl
  have hcount := counted_eq hticks (hk.trans_le (idleBlock_le hvalid))
  obtain ⟨_, hexec', -, -, -, hspeed', hnext⟩ := Simulator.idleLaw s hvalid hphase
  cases hexec'.symm.trans hexec
  rw [← hspeed'] at hspeed
  rw [hcount] at hnext
  split at hnext
  next hover =>
    obtain ⟨hphase', -⟩ := hnext
    exact .accelerate 0 hphase' (by omega) (accelerateBlock_pos _) (by omega)
  next hmore =>
    obtain ⟨hphase', hticks'⟩ := hnext
    exact .idle hphase' hspeed hticks' (by omega)

/-- Each tick of Accelerate raises the ramp by a step, and Cruise begins when it reaches the target (R154). -/
theorem cyclePlace_of_accelerate (hvalid : s.cfg.valid = true) (hexec : exec .tickAuto s = .next t)
    (hphase : s.veh.phase = .accelerate)
    (hspeed : s.veh.speed.toNat = min (k * s.cfg.accelSpeedStep) s.cfg.accelTargetSpeed)
    (hk : k < accelerateBlock s.cfg) : CyclePlace s.cfg t.veh (idleBlock s.cfg + k + 1) := by
  have htable := (configurationTable s.cfg).mp hvalid
  obtain ⟨_, hexec', -, -, hspeed', -, hnext⟩ := Simulator.accelerateLaw s hvalid hphase
  cases hexec'.symm.trans hexec
  have hramp : t.veh.speed.toNat = min ((k + 1) * s.cfg.accelSpeedStep) s.cfg.accelTargetSpeed := by
    rw [hspeed', hspeed, Nat.succ_mul]
    split <;> omega
  have hlast : k + 1 < accelerateBlock s.cfg ↔ (k + 1) * s.cfg.accelSpeedStep < s.cfg.accelTargetSpeed :=
    succ_lt_rampBlock_iff (by omega) k
  split at hnext
  next hover =>
    obtain ⟨hphase', hticks'⟩ := hnext
    exact .cruise 0 hphase' (by omega) (by simp [hticks']) (cruiseBlock_pos _) (by omega)
  next hmore =>
    obtain ⟨hphase', -⟩ := hnext
    exact .accelerate (k + 1) hphase' hramp (by omega) (by omega)

/-- Below the dwell the counter counts, at the dwell Cruise is left for the top of the braking ramp (R155). -/
theorem cyclePlace_of_cruise (hvalid : s.cfg.valid = true) (hexec : exec .tickAuto s = .next t)
    (hphase : s.veh.phase = .cruise) (hspeed : s.veh.speed.toNat = s.cfg.accelTargetSpeed)
    (hticks : s.veh.ticks.toNat = k) (hk : k < cruiseBlock s.cfg) :
    CyclePlace s.cfg t.veh (idleBlock s.cfg + accelerateBlock s.cfg + k + 1) := by
  have hblock : cruiseBlock s.cfg = s.cfg.cruiseDwellTicks + 1 := rfl
  have hcount := counted_eq hticks (hk.trans_le (cruiseBlock_le hvalid))
  obtain ⟨_, hexec', -, -, hspeed', -, hnext⟩ := Simulator.cruiseLaw s hvalid hphase
  cases hexec'.symm.trans hexec
  rw [← hspeed'] at hspeed
  rw [hcount] at hnext
  split at hnext
  next hover =>
    obtain ⟨hphase', -⟩ := hnext
    exact .brake 0 hphase' (by omega) (brakeBlock_pos _) (by omega)
  next hmore =>
    obtain ⟨hphase', hticks'⟩ := hnext
    exact .cruise (k + 1) hphase' hspeed hticks' (by omega) (by omega)

/-- Each tick of Brake lowers the ramp by a step, and the cycle begins anew when it reaches standstill (R156). -/
theorem cyclePlace_of_brake (hvalid : s.cfg.valid = true) (hexec : exec .tickAuto s = .next t)
    (hphase : s.veh.phase = .brake)
    (hspeed : s.veh.speed.toNat = s.cfg.accelTargetSpeed - k * s.cfg.brakeSpeedStep) (hk : k < brakeBlock s.cfg) :
    CyclePlace s.cfg t.veh
      ((idleBlock s.cfg + accelerateBlock s.cfg + cruiseBlock s.cfg + k + 1) % cycleTicks s.cfg) := by
  have htable := (configurationTable s.cfg).mp hvalid
  have hcycle : cycleTicks s.cfg =
    idleBlock s.cfg + accelerateBlock s.cfg + cruiseBlock s.cfg + brakeBlock s.cfg := rfl
  obtain ⟨_, hexec', -, -, -, hspeed', hnext⟩ := Simulator.brakeLaw s hvalid hphase
  cases hexec'.symm.trans hexec
  have hramp : t.veh.speed.toNat = s.cfg.accelTargetSpeed - (k + 1) * s.cfg.brakeSpeedStep := by
    rw [hspeed', hspeed, Nat.succ_mul]
    split <;> omega
  have hlast : k + 1 < brakeBlock s.cfg ↔ (k + 1) * s.cfg.brakeSpeedStep < s.cfg.accelTargetSpeed :=
    succ_lt_rampBlock_iff (by omega) k
  have hstill : t.veh.speed = 0 ↔ ¬ k + 1 < brakeBlock s.cfg := by
    rw [BitVec.toNat_eq, hramp, hlast, not_lt]
    exact Nat.sub_eq_zero_iff_le
  simp only [hstill] at hnext
  split at hnext
  next hover =>
    obtain ⟨hphase', hticks'⟩ := hnext
    rw [show idleBlock s.cfg + accelerateBlock s.cfg + cruiseBlock s.cfg + k + 1 = cycleTicks s.cfg by omega, Nat.mod_self]
    exact .idle hphase' (by omega) (by simp [hticks']) (idleBlock_pos _)
  next hmore =>
    obtain ⟨hphase', -⟩ := hnext
    rw [Nat.mod_eq_of_lt (by omega)]
    exact .brake (k + 1) hphase' hramp (by omega) (by omega)

end Tick

/-- An autonomous tick moves the vehicle one place on, and from the last place to the first. -/
theorem CyclePlace.tick {s t : State} {m : Nat} (hvalid : s.cfg.valid = true) (h : CyclePlace s.cfg s.veh m)
    (hexec : exec .tickAuto s = .next t) : CyclePlace s.cfg t.veh ((m + 1) % cycleTicks s.cfg) := by
  have hmod {n : Nat} (hn : CyclePlace s.cfg t.veh n) : CyclePlace s.cfg t.veh (n % cycleTicks s.cfg) := by
    rwa [Nat.mod_eq_of_lt hn.lt_cycleTicks]
  cases h with
  | idle hphase hspeed hticks hm => exact hmod (cyclePlace_of_idle hvalid hexec hphase hspeed hticks hm)
  | accelerate k hphase hspeed hk hm =>
    rw [hm]
    exact hmod (cyclePlace_of_accelerate hvalid hexec hphase hspeed hk)
  | cruise k hphase hspeed hticks hk hm =>
    rw [hm]
    exact hmod (cyclePlace_of_cruise hvalid hexec hphase hspeed hticks hk)
  | brake k hphase hspeed hk hm =>
    rw [hm]
    exact cyclePlace_of_brake hvalid hexec hphase hspeed hk

/-! A run of autonomous ticks (R218). -/

/-- The atomic tick advances the vehicle as the accept edge does. -/
theorem atomicOp_tickAuto_veh (s : State) : (atomicOp .tickAuto s).veh = (tick advanceAuto s).veh := rfl

/-- One more operation is applied to the state the run left. -/
theorem atomicRun_replicate_succ (i : Instr) (n : Nat) (s : State) :
    atomicRun (List.replicate (n + 1) i) s = atomicOp i (atomicRun (List.replicate n i) s) := by
  rw [List.replicate_succ', atomicRun, List.foldl_append]
  rfl

/-- After `n` autonomous ticks from rest the vehicle is at place `n` of the cycle, counted around it. -/
theorem cyclePlace_atomicRun {s : State} (hvalid : s.cfg.valid = true) (h : CyclePlace s.cfg s.veh 0) (n : Nat) :
    (atomicRun (List.replicate n .tickAuto) s).cfg = s.cfg ∧
      CyclePlace s.cfg (atomicRun (List.replicate n .tickAuto) s).veh (n % cycleTicks s.cfg) := by
  induction n with
  | zero => exact ⟨rfl, by simpa [atomicRun] using h⟩
  | succ n ih =>
    obtain ⟨hcfg, hplace⟩ := ih
    rw [atomicRun_replicate_succ]
    generalize atomicRun (List.replicate n .tickAuto) s = u at hcfg hplace
    refine ⟨hcfg, ?_⟩
    rw [← hcfg] at hvalid hplace ⊢
    have hnext := hplace.tick (t := tick advanceAuto u) hvalid rfl
    rwa [Nat.mod_add_mod, ← atomicOp_tickAuto_veh] at hnext

/-- Settles O45. Idle at rest is the first place of the cycle. -/
theorem driveCycleIsPeriodic : Obligations.DriveCycleIsPeriodic := by
  intro s hvalid hphase hspeed hticks n
  have hstart : CyclePlace s.cfg s.veh 0 :=
    .idle hphase (by simp [hspeed]) (by simp [hticks]) (idleBlock_pos _)
  obtain ⟨-, hplace⟩ := cyclePlace_atomicRun hvalid hstart n
  exact hplace.phase_eq

end Sys2Proof.Machine
end

section
/-!
PROOFS. The Frame Scheduler (`43_frame_scheduler.md` R190 to R195): the payload bytes of each encoder, a TICK from its
accept edge to its latch edge as one transition (`44_tick_and_control.md` R218), the payload read back, and the rotation.
-/

namespace Sys2Proof.Machine

/-! The high bytes of a payload (R61). -/

/-- Eight bits over zeros are byte 0. -/
theorem payloadByte_zero_of_oneByte (x : Byte) : payloadByte (x ++ (0 : BitVec 56)) 0 = x :=
  BitVec.extractLsb'_append_eq_left

/-- Of two bytes over zeros the first is byte 0. -/
theorem payloadByte_zero_of_twoBytes (x y : Byte) : payloadByte (x ++ y ++ (0 : BitVec 48)) 0 = x :=
  (BitVec.extractLsb'_append_eq_of_le (by decide)).trans BitVec.extractLsb'_append_eq_left

/-- Of two bytes over zeros the second is byte 1. -/
theorem payloadByte_one_of_twoBytes (x y : Byte) : payloadByte (x ++ y ++ (0 : BitVec 48)) 1 = y :=
  (BitVec.extractLsb'_append_eq_of_le (by decide)).trans BitVec.extractLsb'_append_eq_right

/-- Zero bits above a number do not change it. -/
theorem toNat_zero_append {n m : Nat} (x : BitVec m) : ((0 : BitVec n) ++ x).toNat = x.toNat := by
  simp [BitVec.toNat_append]

/-! The encoders, byte by byte (R91 to R95, R192). -/

section Encoders

variable (c : Cfg) (v : Vehicle)

theorem payloadByte_encodeSignal_rpm_zero : payloadByte (encodeSignal c .rpm v).data 0 = v.rpm.extractLsb' 8 8 :=
  payloadByte_zero_of_twoBytes _ _

theorem payloadByte_encodeSignal_rpm_one : payloadByte (encodeSignal c .rpm v).data 1 = v.rpm.extractLsb' 0 8 :=
  payloadByte_one_of_twoBytes _ _

/-- The two bytes of the RPM signal, high byte first, spell the register. -/
theorem be16_encodeSignal_rpm : be16 (encodeSignal c .rpm v).data 0 = v.rpm.toNat := by
  have hbytes : payloadByte (encodeSignal c .rpm v).data 0 ++ payloadByte (encodeSignal c .rpm v).data 1 = v.rpm := by
    rw [payloadByte_encodeSignal_rpm_zero, payloadByte_encodeSignal_rpm_one]
    exact (BitVec.extractLsb'_append_extractLsb'_eq_extractLsb' rfl).trans BitVec.extractLsb'_eq_self
  exact (be16_eq_append _ 0).trans (congrArg BitVec.toNat hbytes)

theorem payloadByte_encodeSignal_speed : payloadByte (encodeSignal c .speed v).data 0 = v.speed :=
  payloadByte_zero_of_oneByte _

/-- The throttle's seven bits under a zero bit. -/
theorem payloadByte_encodeSignal_throttle : (payloadByte (encodeSignal c .thrbrk v).data 0).toNat = v.throttle.toNat := by
  have hbyte : payloadByte (encodeSignal c .thrbrk v).data 0 = (0 : BitVec 1) ++ v.throttle :=
    payloadByte_zero_of_twoBytes _ _
  rw [hbyte]
  exact toNat_zero_append _

/-- The brake bit under seven zero bits. -/
theorem payloadByte_encodeSignal_brake : (payloadByte (encodeSignal c .thrbrk v).data 1).toNat = v.brake.toNat := by
  have hbyte : payloadByte (encodeSignal c .thrbrk v).data 1 = (0 : BitVec 7) ++ BitVec.ofBool v.brake :=
    payloadByte_one_of_twoBytes ((0 : BitVec 1) ++ v.throttle) _
  rw [hbyte]
  exact (toNat_zero_append _).trans (BitVec.toNat_ofBool _)

theorem payloadByte_encodeSignal_coolant : payloadByte (encodeSignal c .coolant v).data 0 = v.coolant :=
  payloadByte_zero_of_oneByte _

theorem payloadByte_encodeSignal_steer : payloadByte (encodeSignal c .steer v).data 0 = v.steer :=
  payloadByte_zero_of_oneByte _

/-- The identifier depends on the kind alone. -/
theorem encodeSignal_id_eq (k : Kind) (v' : Vehicle) : (encodeSignal c k v).id = (encodeSignal c k v').id := by
  cases k <;> rfl

end Encoders

/-- Settles O46. The constraint table keeps every identifier inside its eleven bits (R7). -/
theorem signalEncoders : Obligations.SignalEncoders := by
  intro c v hvalid
  have htable := (configurationTable c).mp hvalid
  have hid {n : Nat} (hn : n ≤ 0x7FF) : (BitVec.ofNat 11 n).toNat = n := toNat_ofNat_of_lt (by omega)
  refine ⟨fun k => ?header, fun k _ => payloadByte_encodeSignal_tail c k v, ?rpmHigh, ?rpmLow,
    payloadByte_encodeSignal_speed c v, payloadByte_encodeSignal_throttle c v, payloadByte_encodeSignal_brake c v,
    payloadByte_encodeSignal_coolant c v, payloadByte_encodeSignal_steer c v⟩
  case header =>
    cases k <;> exact congrArg (·, _) (hid (by omega))
  case rpmHigh =>
    rw [payloadByte_encodeSignal_rpm_zero, BitVec.extractLsb'_toNat, Nat.shiftRight_eq_div_pow]
    omega
  case rpmLow =>
    rw [payloadByte_encodeSignal_rpm_one, BitVec.extractLsb'_toNat]
    rfl

/-! TICK as one transition (R218, R270). -/

/-- A kind's edges: one per stream bit, the latch edge after them, and the accept edge before (R270). -/
theorem tickEdges_eq (c : Cfg) (k : Kind) (v : Vehicle) :
    tickEdges k = streamLength (encodeSignal c k v).dlc + 1 + 1 := by
  cases k <;> rfl

theorem completionEdges_of_isTick {i : Instr} (h : isTick i = true) (s : State) :
    completionEdges i s = tickEdges (kindAt s.cfg s.idx) := by
  cases i with
  | tickAuto | tickMacc | tickMbrk | tickMcst => rfl
  | _ => cases h

/-- A TICK form at its accept edge is the tick with its advance (R211 to R214). -/
theorem exec_of_tickAdvance {i : Instr} {advance : Cfg → Vehicle → Vehicle} (h : tickAdvance i = some advance) (s : State) :
    exec i s = .next (tick advance s) := by
  cases i with
  | tickAuto | tickMacc | tickMbrk | tickMcst =>
    cases h
    rfl
  | _ => cases h

@[simp] theorem atomicTick_veh (advance : Cfg → Vehicle → Vehicle) (s : State) :
    (atomicTick advance s).veh = advance s.cfg s.veh := rfl

@[simp] theorem atomicTick_frame_id (advance : Cfg → Vehicle → Vehicle) (s : State) :
    (atomicTick advance s).frame.id = (encodeSignal s.cfg (kindAt s.cfg s.idx) (advance s.cfg s.veh)).id := rfl

@[simp] theorem atomicTick_frame_data (advance : Cfg → Vehicle → Vehicle) (s : State) :
    (atomicTick advance s).frame.data = (encodeSignal s.cfg (kindAt s.cfg s.idx) (advance s.cfg s.veh)).data := rfl

@[simp] theorem passEdges_veh (k : Nat) (s : State) : (passEdges k s).veh = s.veh := rfl
@[simp] theorem passEdges_frame (k : Nat) (s : State) : (passEdges k s).frame = s.frame := rfl

/-- A run and the accept edge before it, counted together. -/
theorem runEdges_startRun_passEdge (id : Identifier) {dlc : Length} (data : Payload) {s : State} (hdlc : dlc.toNat ≤ 8)
    (hvalid : s.cfg.valid = true) (hrst : NoResetFor (streamLength dlc + 1 + 1) s) :
    runEdges (streamLength dlc + 1) (startRun id dlc data (passEdge s)) =
      .next (passEdges (streamLength dlc + 1 + 1) (frameDone ⟨id, dlc, data, computeCrc15 id dlc data⟩ s)) := by
  rw [runEdges_startRun (s := passEdge s) id data hdlc hvalid (noResetFor_passEdge hrst), frameDone_passEdge,
    passEdges_passEdge]

/-- An accepted TICK, run to its latch edge, is the atomic tick: the accept edge starts the run of the encoded frame, and
the run's edges end with that frame done. -/
theorem runEdges_tick {i : Instr} {advance : Cfg → Vehicle → Vehicle} {s : State} (hacc : Accepts i s)
    (hadv : tickAdvance i = some advance) (hrst : NoResetFor (completionEdges i s) s) :
    runEdges (completionEdges i s) s = .next (passEdges (completionEdges i s) (atomicTick advance s)) := by
  have hstep : step s = .next (tick advance (passEdge s)) := hacc.step_eq.trans (exec_of_tickAdvance hadv _)
  rw [completionEdges_of_isTick (isTick_of_tickAdvance hadv),
    tickEdges_eq s.cfg (kindAt s.cfg s.idx) (advance s.cfg s.veh)] at hrst ⊢
  rw [runEdges_succ _ hstep, tick_eq]
  exact runEdges_startRun_passEdge (s := { s with veh := advance s.cfg s.veh, idx := rotate s.cfg s.idx }) _ _
    (encodeSignal_dlc_le _ _ _) hacc.configured hrst

/-- Settles O48. The frame latched at the end of the run is the one encoded from the vehicle the run leaves. -/
theorem payloadRoundTrip : Obligations.PayloadRoundTrip := by
  intro i s t hacc htick hrst hrun
  obtain ⟨advance, hadv, -⟩ := exists_exec_tick htick s
  have ht : t = passEdges (completionEdges i s) (atomicTick advance s) :=
    Host.Outcome.next.inj (hrun.symm.trans (runEdges_tick hacc hadv hrst))
  have hdata : t.frame.data = (encodeSignal s.cfg (kindAt s.cfg s.idx) t.veh).data := by
    rw [ht, passEdges_veh, passEdges_frame, atomicTick_veh, atomicTick_frame_data]
  rw [hdata]
  cases kindAt s.cfg s.idx with
  | rpm => exact be16_encodeSignal_rpm s.cfg t.veh
  | speed => exact congrArg BitVec.toNat (payloadByte_encodeSignal_speed s.cfg t.veh)
  | thrbrk => exact ⟨payloadByte_encodeSignal_throttle s.cfg t.veh, payloadByte_encodeSignal_brake s.cfg t.veh⟩
  | coolant => exact congrArg BitVec.toInt (payloadByte_encodeSignal_coolant s.cfg t.veh)
  | steer => exact congrArg BitVec.toInt (payloadByte_encodeSignal_steer s.cfg t.veh)

/-! Rotation over any sequence of operations (R193). -/

/-- A TICK form as an operation is the atomic tick with its advance. -/
theorem atomicOp_of_tickAdvance {i : Instr} {advance : Cfg → Vehicle → Vehicle} (h : tickAdvance i = some advance)
    (s : State) : atomicOp i s = atomicTick advance s := by
  cases i with
  | tickAuto | tickMacc | tickMbrk | tickMcst =>
    cases h
    rfl
  | _ => cases h

@[simp] theorem atomicBuild_cfg (id : Identifier) (dlc : Length) (data : Payload) (s : State) :
    (atomicBuild id dlc data s).cfg = s.cfg := by
  rw [atomicBuild]
  split <;> rfl

@[simp] theorem atomicBuild_idx (id : Identifier) (dlc : Length) (data : Payload) (s : State) :
    (atomicBuild id dlc data s).idx = s.idx := by
  rw [atomicBuild]
  split <;> rfl

/-- No operation writes the configuration (R7). -/
@[simp] theorem atomicOp_cfg (i : Instr) (s : State) : (atomicOp i s).cfg = s.cfg := by
  cases i with
  | build id dlc data => exact atomicBuild_cfg id dlc data s
  | _ => rfl

/-- A TICK rotates the index; no other operation touches it (R32, R193). -/
theorem atomicOp_idx (i : Instr) (s : State) :
    (atomicOp i s).idx = if isTick i = true then rotate s.cfg s.idx else s.idx := by
  cases i with
  | build id dlc data => exact atomicBuild_idx id dlc data s
  | _ => rfl

theorem atomicRun_cons (i : Instr) (ops : List Instr) (s : State) :
    atomicRun (i :: ops) s = atomicRun ops (atomicOp i s) := rfl

theorem atomicRun_snoc (ops : List Instr) (i : Instr) (s : State) :
    atomicRun (ops ++ [i]) s = atomicOp i (atomicRun ops s) := List.foldl_append

@[simp] theorem atomicRun_cfg (ops : List Instr) (s : State) : (atomicRun ops s).cfg = s.cfg := by
  induction ops generalizing s with
  | nil => rfl
  | cons i ops ih => rw [atomicRun_cons, ih, atomicOp_cfg]

/-- The index counts the ticks of a run around `KINDS`, from wherever it stands. -/
theorem atomicRun_idx_toNat {s : State} (hvalid : s.cfg.valid = true) (hidx : s.idx.toNat < s.cfg.kinds.length)
    (ops : List Instr) :
    (atomicRun ops s).idx.toNat = (s.idx.toNat + (ops.filter isTick).length) % s.cfg.kinds.length := by
  induction ops generalizing s with
  | nil => exact (Nat.mod_eq_of_lt hidx).symm
  | cons i ops ih =>
    obtain ⟨hpos, hle⟩ := kinds_length_mem hvalid
    have hnext := atomicOp_idx i s
    have hrest := ih (s := atomicOp i s)
    rw [atomicOp_cfg] at hrest
    rw [atomicRun_cons]
    by_cases htick : isTick i = true
    · rw [if_pos htick] at hnext
      rw [hrest hvalid (hnext ▸ rotate_lt hvalid s.idx), hnext, rotate_toNat hpos hle, Nat.mod_add_mod,
        List.filter_cons_of_pos htick, List.length_cons, Nat.add_assoc, Nat.add_comm 1]
    · rw [if_neg htick] at hnext
      rw [hrest hvalid (hnext ▸ hidx), hnext, List.filter_cons_of_neg htick]

/-- A TICK sends the identifier of the kind its index selects, whatever the vehicle does. -/
theorem atomicOp_frame_id {i : Instr} (htick : isTick i = true) (s : State) (v : Vehicle) :
    (atomicOp i s).frame.id = (encodeSignal s.cfg (kindAt s.cfg s.idx) v).id := by
  obtain ⟨advance, hadv, -⟩ := exists_exec_tick htick s
  rw [atomicOp_of_tickAdvance hadv, atomicTick_frame_id]
  exact encodeSignal_id_eq _ _ _ _

/-- Settles O47. -/
theorem rotationIsRoundRobin : Obligations.RotationIsRoundRobin := by
  intro ops s hvalid hidx
  obtain ⟨hpos, -⟩ := kinds_length_mem hvalid
  have hzero : s.idx.toNat = 0 := by simp [hidx]
  have hcount := atomicRun_idx_toNat hvalid (hzero ▸ hpos) ops
  rw [hzero, Nat.zero_add] at hcount
  refine ⟨hcount, fun i htick => ⟨kindAt s.cfg (atomicRun ops s).idx, ?kind, fun v => ?identifier⟩⟩
  case kind =>
    have hlt := Nat.mod_lt (ops.filter isTick).length hpos
    rw [← hcount] at hlt ⊢
    rw [kindAt_of_lt hlt, List.getElem?_eq_getElem hlt]
  case identifier =>
    rw [atomicRun_snoc, atomicOp_frame_id htick, atomicRun_cfg]

end Sys2Proof.Machine
end

section
/-!
PROOFS. The step as a whole and the operation-level view (`44_tick_and_control.md` R210, R215 to R218): where the step
answers and where it stops, the accept edges of TICK, NOP and the reserved codes, and every operation as one transition,
one after the other.
-/

namespace Sys2Proof.Machine

/-! Where the step answers (R217). -/

/-- Settles O6. -/
theorem stepRunsDecodedCommand : Obligations.StepRunsDecodedCommand := fun _ _ hacc => hacc.step_eq

/-- A shift edge of a state no rule covers stops (A5). -/
theorem shiftEdge_of_lt_cnt {s : State} (h : 79 < s.cnt.toNat) : shiftEdge s = .fault .cntOutsideRules :=
  if_neg (Nat.not_le.mpr h)

/-- Settles O13. A count above 79 is not 0, so the edge of a run in progress is a shift edge. -/
theorem countAbove79Stops : Obligations.CountAbove79Stops := by
  intro s hvalid hrst hbusy hcnt
  have hbits : s.cnt ≠ 0 := by
    intro hzero
    simp [hzero] at hcnt
  rw [step_eq hvalid, if_neg (by simp [hrst]), if_pos hbusy, if_neg hbits]
  exact shiftEdge_of_lt_cnt (s := passEdge s) hcnt

/-- Settles O8. Of the four branches only the shift edge can stop, and it does so above 79 only. -/
theorem stepIsTotal : Obligations.StepIsTotal := by
  intro s hvalid hcnt
  cases hrst : (pins s).rst with
  | true => exact ⟨_, step_of_rst hvalid hrst⟩
  | false =>
    cases hbusy : s.busy with
    | true =>
      by_cases hbits : s.cnt = 0
      · exact ⟨_, step_of_atLatchEdge hvalid ⟨hrst, hbusy, hbits⟩⟩
      · exact ⟨_, step_of_atShiftEdge hvalid ⟨hrst, hbusy, hbits⟩ hcnt⟩
    | false =>
      have hacc : Accepts (decode (pins s).cw) s := ⟨hvalid, hrst, hbusy, rfl⟩
      obtain ⟨t, hexec, -⟩ := exec_cases (decode (pins s).cw) (passEdge s)
      exact ⟨t, hacc.step_eq.trans hexec⟩

/-! The accept edges of NOP, the reserved codes and TICK (R210, R215, R216). -/

/-- NOP and the reserved codes are one operation (R216). -/
theorem exec_of_mem_nops {i : Instr} (h : i ∈ [Instr.nop, .rsvd5, .rsvd6, .rsvd7]) (s : State) :
    exec i s = .next (clearPulses s) := by
  cases i with
  | nop | rsvd5 | rsvd6 | rsvd7 => rfl
  | _ => simp at h

/-- Settles O53. -/
theorem nopAndReservedEffect : Obligations.NopAndReservedEffect := fun _ hi s => exec_of_mem_nops hi s

/-- The four TICK forms and their advances, as the statements list them. -/
theorem tickAdvance_of_listed {i : Instr} {advance : Cfg → Vehicle → Vehicle}
    (h : (i, advance) ∈ [(Instr.tickAuto, advanceAuto), (.tickMbrk, advanceMbrk), (.tickMcst, advanceMcst)] ∨
      ∃ thrIn, i = .tickMacc thrIn ∧ advance = advanceMacc thrIn) : tickAdvance i = some advance := by
  obtain hlisted | ⟨thrIn, rfl, rfl⟩ := h
  · simp only [List.mem_cons, Prod.mk.injEq, List.not_mem_nil, or_false] at hlisted
    obtain ⟨rfl, rfl⟩ | ⟨rfl, rfl⟩ | ⟨rfl, rfl⟩ := hlisted <;> rfl
  · rfl

/-- The next index under a valid configuration, which sends one to eight kinds (R193). -/
theorem rotate_toNat_of_valid {c : Cfg} (h : c.valid = true) (idx : BitVec 3) :
    (rotate c idx).toNat = (idx.toNat + 1) % c.kinds.length := by
  obtain ⟨hpos, hle⟩ := kinds_length_mem h
  exact rotate_toNat hpos hle idx

/-- Settles O33. -/
theorem tickAcceptEdge : Obligations.TickAcceptEdge := fun _ _ hform s =>
  ⟨_, exec_of_tickAdvance (tickAdvance_of_listed hform) s, streamLength_toNat (encodeSignal_dlc_le _ _ _),
    fun hvalid => rotate_toNat_of_valid hvalid s.idx, rfl⟩

/-! TICK as one transition (R218). -/

/-- The mask does not change a payload whose bytes beyond the length are zero. -/
theorem maskPayload_of_tail_zero {dlc : Length} {data : Payload}
    (h : ∀ i : Fin 8, dlc.toNat ≤ i.val → payloadByte data i = 0) : maskPayload dlc data = data := by
  apply BitVec.eq_of_getLsbD_eq
  intro k hk
  rw [maskPayload_getLsbD]
  by_cases hkept : 64 - 8 * dlc.toNat ≤ k
  · rw [decide_eq_true hkept, Bool.and_true]
  · have hbit := payloadByte_getLsbD data ⟨7 - k / 8, by omega⟩ (k % 8)
    rw [h _ (show dlc.toNat ≤ 7 - k / 8 by omega), show 56 - 8 * (7 - k / 8) + k % 8 = k by omega,
      decide_eq_true (Nat.mod_lt k (by decide)), Bool.true_and] at hbit
    simp [← hbit]

/-- Every encoder's signal is one `build` frames as it is (R190). -/
theorem build_encodeSignal (c : Cfg) (k : Kind) (v : Vehicle) :
    build (encodeSignal c k v).id (encodeSignal c k v).dlc (encodeSignal c k v).data =
      .ok ⟨(encodeSignal c k v).id, (encodeSignal c k v).dlc, (encodeSignal c k v).data,
        computeCrc15 (encodeSignal c k v).id (encodeSignal c k v).dlc (encodeSignal c k v).data⟩ := by
  rw [build_of_le _ _ (encodeSignal_dlc_le c k v),
    maskPayload_of_tail_zero fun _ hi => payloadByte_encodeSignal_tail c k v hi]

/-- Settles O49. -/
theorem tickAsOneTransition : Obligations.TickAsOneTransition := by
  intro i advance s hform hacc n hn hrst
  have hadv := tickAdvance_of_listed hform
  have hedges : n = completionEdges i s := by
    rw [hn, completionEdges_of_isTick (isTick_of_tickAdvance hadv), tickEdges_eq s.cfg _ (advance s.cfg s.veh), streamLength]
    omega
  rw [hedges] at hrst ⊢
  exact ⟨_, rotate s.cfg s.idx, build_encodeSignal _ _ _, rotate_toNat_of_valid hacc.configured s.idx,
    runEdges_tick hacc hadv hrst⟩

/-! Every operation as one transition (R134, R218). -/

theorem passEdges_one (s : State) : passEdges 1 s = passEdge s := by
  simp [passEdges, passEdge]

/-- An operation that its accept edge completes is one transition. -/
theorem runEdges_oneEdge {i : Instr} {s : State} (hacc : Accepts i s) (hedges : completionEdges i s = 1)
    (hexec : exec i (passEdge s) = .next (passEdge (atomicOp i s))) :
    runEdges (completionEdges i s) s = .next (passEdges (completionEdges i s) (atomicOp i s)) := by
  rw [hedges, runEdges_succ 0 (hacc.step_eq.trans hexec), runEdges_zero, passEdges_one]

/-- BUILD is one transition: the exception at its accept edge, or the run of the masked frame. -/
theorem runEdges_build {id : Identifier} {dlc : Length} {data : Payload} {s : State} (hacc : Accepts (.build id dlc data) s)
    (hrst : NoResetFor (completionEdges (.build id dlc data) s) s) :
    runEdges (completionEdges (.build id dlc data) s) s =
      .next (passEdges (completionEdges (.build id dlc data) s) (atomicBuild id dlc data s)) := by
  obtain ⟨hlong, hshort⟩ := buildMakesFrame id dlc data
  by_cases hdlc : dlc.toNat ≤ 8
  · have hedges : completionEdges (.build id dlc data) s = 17 + 8 * dlc.toNat :=
      if_neg (lengthInvalid_iff.not.mpr (Nat.not_lt.mpr hdlc))
    rw [hedges] at hrst ⊢
    obtain ⟨⟨f, hf, hrun⟩, -⟩ := buildAsOneTransition id dlc data s hdlc hacc hrst
    cases (hshort hdlc).symm.trans hf
    rw [hrun, atomicBuild, hf]
    rfl
  · have hinvalid := lengthInvalid_iff.mpr (Nat.lt_of_not_le hdlc)
    have hatomic : atomicBuild id dlc data s = raiseInvalidLength s := by
      rw [atomicBuild, hlong (Nat.lt_of_not_le hdlc)]
    have hexec : exec (.build id dlc data) (passEdge s) = .next (passEdge (atomicBuild id dlc data s)) := by
      rw [hatomic]
      exact if_pos hinvalid
    exact runEdges_oneEdge hacc (if_pos hinvalid) hexec

/-- Every accepted operation, run to its completion, is its atomic transition. -/
theorem runEdges_operation {i : Instr} {s : State} (hacc : Accepts i s) (hrst : NoResetFor (completionEdges i s) s) :
    runEdges (completionEdges i s) s = .next (passEdges (completionEdges i s) (atomicOp i s)) := by
  cases i with
  | build => exact runEdges_build hacc hrst
  | tickAuto | tickMacc | tickMbrk | tickMcst => exact runEdges_tick hacc rfl hrst
  | nop | crcClr | crcBit | rsvd5 | rsvd6 | rsvd7 => exact runEdges_oneEdge hacc rfl rfl

/-! Sequences of operations (R99, R218). -/

/-- A BUILD ends its run, and an exception starts none. -/
theorem atomicBuild_busy {s : State} (h : s.busy = false) (id : Identifier) (dlc : Length) (data : Payload) :
    (atomicBuild id dlc data s).busy = false := by
  rw [atomicBuild]
  split
  · rfl
  · exact h

/-- No run is in progress after an operation. -/
theorem atomicOp_busy {s : State} (h : s.busy = false) (i : Instr) : (atomicOp i s).busy = false := by
  cases i with
  | build id dlc data => exact atomicBuild_busy h id dlc data
  | tickAuto | tickMacc | tickMbrk | tickMcst => rfl
  | nop | crcClr | crcBit | rsvd5 | rsvd6 | rsvd7 => exact h

/-- A BUILD as one transition does not look at the host's side. -/
theorem atomicBuild_withHost (id : Identifier) (dlc : Length) (data : Payload) (s : State) (script : List Pins) (edge : Nat) :
    atomicBuild id dlc data { s with script := script, edge := edge } =
      { atomicBuild id dlc data s with script := script, edge := edge } := by
  rw [atomicBuild, atomicBuild]
  split <;> rfl

/-- An operation as one transition does not look at the host's side. -/
theorem atomicOp_withHost (i : Instr) (s : State) (script : List Pins) (edge : Nat) :
    atomicOp i { s with script := script, edge := edge } = { atomicOp i s with script := script, edge := edge } := by
  cases i with
  | build id dlc data => exact atomicBuild_withHost id dlc data s script edge
  | _ => rfl

/-- An operation issued with no run in progress, and its `WAIT`: one operation line per edge of the operation. -/
theorem withWait_of_not_busy {i : Instr} {s : State} (h : s.busy = false) :
    withWait i s = (i :: List.replicate (completionEdges i s - 1) Instr.nop).map .op := by
  simp [withWait, waitedEdges_of_not_busy h]

/-- With no run in progress, an operation's line on the port is accepted (R98, R217). -/
theorem accepts_of_line {i : Instr} {rest : List Pins} {s : State} (hvalid : s.cfg.valid = true) (hbusy : s.busy = false)
    (hscript : s.script = linePins (.op i) :: rest) : Accepts i s := by
  have hpins : pins s = ⟨false, encode i⟩ := pins_cons s _ rest hscript
  exact ⟨hvalid, by rw [hpins], hbusy, by rw [hpins, decode_encode]⟩

/-- The lines of an operation and its `WAIT` take the block through the operation's atomic transition. -/
theorem runEdges_withWait (i : Instr) {s : State} (hvalid : s.cfg.valid = true) (hbusy : s.busy = false) (rest : List Pins)
    (edge : Nat) :
    runEdges (withWait i s).length { s with script := scriptOf (withWait i s) ++ rest, edge := edge } =
      .next { atomicOp i s with script := rest, edge := edge + (withWait i s).length } := by
  have hlength : (withWait i s).length = completionEdges i s := by rw [withWait_length, waitedEdges_of_not_busy hbusy]
  have hacc : Accepts i { s with script := scriptOf (withWait i s) ++ rest, edge := edge } :=
    accepts_of_line hvalid hbusy rfl
  have hrst : NoResetFor (completionEdges i s) { s with script := scriptOf (withWait i s) ++ rest, edge := edge } := by
    rw [← hlength, withWait_of_not_busy hbusy, List.length_map]
    exact noResetFor_of_operations rfl
  have hused : (scriptOf (withWait i s) ++ rest).drop (withWait i s).length = rest :=
    List.drop_left' (by simp [scriptOf])
  have hrun : runEdges (completionEdges i s) { s with script := scriptOf (withWait i s) ++ rest, edge := edge } =
      .next (passEdges (completionEdges i s)
        (atomicOp i { s with script := scriptOf (withWait i s) ++ rest, edge := edge })) := runEdges_operation hacc hrst
  rwa [atomicOp_withHost, passEdges, ← hlength, hused] at hrun

/-- The lines of a host that waits for each operation take the block through the atomic transitions, one after the other.
The host's side is written apart from the registers, because the lines still to come depend on the registers alone. -/
theorem runEdges_operationLines (ops : List Instr) {s : State} (hvalid : s.cfg.valid = true) (hbusy : s.busy = false)
    (rest : List Pins) (edge : Nat) :
    runEdges (operationLines ops s).length { s with script := scriptOf (operationLines ops s) ++ rest, edge := edge } =
      .next { atomicRun ops s with script := rest, edge := edge + (operationLines ops s).length } := by
  induction ops generalizing s edge with
  | nil => rfl
  | cons i ops ih =>
    have hlines : operationLines (i :: ops) s = withWait i s ++ operationLines ops (atomicOp i s) := rfl
    have hscript : scriptOf (operationLines (i :: ops) s) ++ rest =
        scriptOf (withWait i s) ++ (scriptOf (operationLines ops (atomicOp i s)) ++ rest) := by
      rw [hlines, scriptOf, List.map_append, List.append_assoc]
      rfl
    rw [hscript, hlines, List.length_append, runEdges_add _ (runEdges_withWait i hvalid hbusy _ edge),
      ih ((atomicOp_cfg i s).symm ▸ hvalid) (atomicOp_busy hbusy i), Nat.add_assoc, atomicRun_cons]

/-- Settles O51. -/
theorem operationSequencesRefine : Obligations.OperationSequencesRefine := by
  intro ops s rest hvalid hbusy hscript
  have hrun := runEdges_operationLines ops hvalid hbusy rest s.edge
  rwa [← hscript] at hrun

end Sys2Proof.Machine
end

section
/-!
PROOFS. The invariants along every run (`44_tick_and_control.md` R217, `70_reset_and_hazards.md` R272): a legal state's
step answers and its next state is legal, so the block runs for ever.
-/

namespace Sys2Proof.Machine

/-- No edge writes the configuration (R7). -/
theorem EdgeTo.cfg_eq {s t : State} (h : EdgeTo s t) : t.cfg = s.cfg := by
  cases h <;> rfl

/-- No state of a consistent run counts beyond the longest stream (R34). -/
theorem RunConsistent.cnt_le_79 {s : State} (h : RunConsistent s) : s.cnt.toNat ≤ 79 := by
  cases hbusy : s.busy with
  | false => simp [h.not_busy hbusy]
  | true => exact (h.cnt_le hbusy).trans (streamLength_le (h.dlc_le hbusy))

/-- Every step keeps every invariant: each part by the statement about it. -/
theorem Legal.of_step {s t : State} (h : Legal s) (hstep : step s = .next t) : Legal t := by
  obtain ⟨hvehicle, -⟩ := vehicleDomainsKept s t h.vehicle hstep
  obtain ⟨hframe, hrun⟩ := checksumInvariantKept s t h.frame h.run hstep
  obtain ⟨hindex, hflags⟩ := indexAndFlagsKept s t h.index h.flags hstep
  have hcfg := (step_edgeTo hstep).cfg_eq
  exact ⟨hcfg ▸ h.configured, hvehicle, hindex, hframe, hrun, hflags⟩

/-- The step answers on every legal state, with a legal state. -/
theorem Legal.exists_step {s : State} (h : Legal s) : ∃ t, step s = .next t ∧ Legal t := by
  obtain ⟨t, hstep⟩ := stepIsTotal s h.configured h.run.cnt_le_79
  exact ⟨t, hstep, h.of_step hstep⟩

/-- What holds of a state and makes its step answer with a state of which it holds again, holds along every run. -/
theorem exists_runEdges_of_step {P : State → Prop} (hstep : ∀ s, P s → ∃ t, step s = .next t ∧ P t) {s : State}
    (h : P s) (n : Nat) : ∃ t, runEdges n s = .next t ∧ P t := by
  induction n with
  | zero => exact ⟨s, runEdges_zero s, h⟩
  | succ n ih =>
    obtain ⟨t, hrun, ht⟩ := ih
    obtain ⟨u, hnext, hu⟩ := hstep t ht
    exact ⟨u, runEdges_snoc hrun hnext, hu⟩

/-- Settles O57. -/
theorem legalStatesRunForever : Obligations.LegalStatesRunForever := fun _ n hlegal =>
  exists_runEdges_of_step (fun _ => Legal.exists_step) hlegal n

end Sys2Proof.Machine
end

section
/-!
PROOFS. The exceptions (`60_exceptions.md` R232, R242, R243): the BUILD that raises InvalidLength, the throttle beyond its
range, and the block at rest under NOPs.
-/

namespace Sys2Proof.Machine

/-! InvalidLength is precise (R232). -/

/-- A BUILD with a length no frame can have takes the exception and starts no run. -/
theorem exec_build_of_lt (id : Identifier) {dlc : Length} (data : Payload) (s : State) (hdlc : 8 < dlc.toNat) :
    exec (.build id dlc data) s = .next (raiseInvalidLength s) :=
  if_pos (lengthInvalid_iff.mpr hdlc)

/-- Settles O31. -/
theorem badBuildRaisesInvalidLength : Obligations.BadBuildRaisesInvalidLength := fun id _ data s hdlc =>
  exec_build_of_lt id data s hdlc

/-! A throttle above 100 is no error (R243). -/

/-- The sampled throttle saturates at 100. -/
theorem sampledThrottle_of_le {thrIn : BitVec 7} (h : 100 ≤ thrIn.toNat) : sampledThrottle thrIn = 100 :=
  Nat.min_eq_right h

/-- The manual-accelerate law sees its operand through the sampled throttle only (R162). -/
theorem maccLaw_congr {thrIn thrIn' : BitVec 7} (h : sampledThrottle thrIn = sampledThrottle thrIn') (c : Cfg) (v : Vehicle) :
    maccLaw c v thrIn = maccLaw c v thrIn' := by
  rw [maccLaw, maccLaw, h]

/-- So does the advance of TICK.MACC. -/
theorem advanceMacc_congr {thrIn thrIn' : BitVec 7} (h : sampledThrottle thrIn = sampledThrottle thrIn') :
    advanceMacc thrIn = advanceMacc thrIn' := by
  funext c v
  rw [advanceMacc, advanceMacc, maccLaw_congr h]

/-- Settles O42. Both operands are sampled as 100, and the tick depends on its operand through the advance alone. -/
theorem sampledThrottleClamped : Obligations.SampledThrottleClamped := by
  intro thrIn s hthr
  have hsame : sampledThrottle thrIn = sampledThrottle 100 :=
    (sampledThrottle_of_le hthr).trans (sampledThrottle_of_le (by decide)).symm
  rw [exec_of_tickAdvance (i := .tickMacc thrIn) rfl, exec_of_tickAdvance (i := .tickMacc 100) rfl, advanceMacc_congr hsame]

/-! The block at rest (R242). -/

/-- With no run in progress, the edge of a NOP line lowers the pulse flags and leaves the lines after it. -/
theorem step_of_nop {n : Nat} {rest : List Pins} {s : State} (hvalid : s.cfg.valid = true) (hbusy : s.busy = false)
    (hscript : s.script = scriptOf (List.replicate (n + 1) (.op .nop)) ++ rest) :
    step s = .next { s with
      script := scriptOf (List.replicate n (.op .nop)) ++ rest, edge := s.edge + 1, fValid := false, errLen := false } := by
  rw [← List.map_replicate] at hscript ⊢
  exact (step_of_operation hvalid hbusy hscript).trans (nopAndReservedEffect .nop (by simp) _)

/-- Settles O52, by induction on the number of edges from the first: the pulses fall at the first edge, and every later
edge finds them low. -/
theorem nopsChangeNothing : Obligations.NopsChangeNothing := by
  intro n s rest hn hvalid hbusy hscript
  induction n, hn using Nat.le_induction generalizing s with
  | base => exact runEdges_succ 0 (step_of_nop hvalid hbusy hscript)
  | succ n _ ih =>
    calc runEdges (n + 1) s
      _ = _ := runEdges_succ n (step_of_nop hvalid hbusy hscript)
      _ = _ := ih _ hvalid hbusy rfl
      _ = _ := by rw [Nat.add_assoc, Nat.add_comm 1]

end Sys2Proof.Machine
end

section
/-!
PROOFS. Timing and the host's side of a run (`70_reset_and_hazards.md` R265, R270): the command words a run drops, and the
edges an operation is busy for.
-/

namespace Sys2Proof.Machine

/-! Commands during a run (R265). -/

/-- While a run is in progress and the host drives no reset, the edge is the run's own: a latch edge or a shift edge, of the
state the consumed port values leave. -/
theorem step_of_busy {s : State} (hrst : (pins s).rst = false) (hvalid : s.cfg.valid = true) (hbusy : s.busy = true) :
    step s = if s.cnt = 0 then .next (latchEdge (passEdge s)) else shiftEdge (passEdge s) := by
  rw [step_eq hvalid, if_neg (by simp [hrst]), if_pos hbusy]

/-- Settles O15. Both hosts' states are the same once the edge has consumed its port values, and a run's edge looks at
nothing else. -/
theorem commandsDuringRunDropped : Obligations.CommandsDuringRunDropped := by
  intro s p q rest hbusy
  have hrst (cw : CommandWord) : (pins { s with script := ⟨false, cw⟩ :: rest }).rst = false := by
    rw [pins_cons _ _ rest rfl]
  cases hvalid : s.cfg.valid with
  | true =>
    have hconsumed : passEdge { s with script := ⟨false, p⟩ :: rest } = passEdge { s with script := ⟨false, q⟩ :: rest } :=
      rfl
    rw [step_of_busy (hrst p) hvalid hbusy, step_of_busy (hrst q) hvalid hbusy, hconsumed]
  | false =>
    have hrefused (cw : CommandWord) : step { s with script := ⟨false, cw⟩ :: rest } = .refused .invalidConfiguration :=
      badConfigurationRefused _ hvalid
    rw [hrefused p, hrefused q]

/-! The edges of an operation (R270). -/

/-- Until its latch edge an accepted TICK is busy. -/
theorem runEdges_tick_busy {i : Instr} {advance : Cfg → Vehicle → Vehicle} {s : State} (hacc : Accepts i s)
    (hadv : tickAdvance i = some advance) (hrst : NoResetFor (completionEdges i s) s) {k : Nat} (hpos : 1 ≤ k)
    (hk : k < completionEdges i s) : ∃ t, runEdges k s = .next t ∧ t.busy = true := by
  have hstep : step s = .next (tick advance (passEdge s)) := hacc.step_eq.trans (exec_of_tickAdvance hadv _)
  rw [completionEdges_of_isTick (isTick_of_tickAdvance hadv),
    tickEdges_eq s.cfg (kindAt s.cfg s.idx) (advance s.cfg s.veh)] at hrst hk
  obtain ⟨k, rfl⟩ := Nat.exists_eq_add_of_le' hpos
  have hrun := noResetFor_passEdge hrst
  have hdlc := encodeSignal_dlc_le s.cfg (kindAt s.cfg s.idx) (advance s.cfg s.veh)
  obtain ⟨t, ht, hbusy, -⟩ := runEdges_startRun_busy
    (s := { passEdge s with veh := advance s.cfg s.veh, idx := rotate s.cfg s.idx }) (k := k) _ _ hdlc hacc.configured
    (fun j hj => hrun j (by omega)) (by omega)
  exact ⟨t, (runEdges_succ k hstep).trans ht, hbusy⟩

/-- Until its latch edge an accepted BUILD is busy; one that raises InvalidLength has no edge before its last. -/
theorem runEdges_build_busy {id : Identifier} {dlc : Length} {data : Payload} {s : State}
    (hacc : Accepts (.build id dlc data) s) (hrst : NoResetFor (completionEdges (.build id dlc data) s) s) {k : Nat}
    (hpos : 1 ≤ k) (hk : k < completionEdges (.build id dlc data) s) : ∃ t, runEdges k s = .next t ∧ t.busy = true := by
  rw [completionEdges] at hrst hk
  by_cases hdlc : dlc.toNat ≤ 8
  · rw [if_neg (lengthInvalid_iff.not.mpr (Nat.not_lt.mpr hdlc))] at hrst hk
    obtain ⟨-, hearlier⟩ := buildAsOneTransition id dlc data s hdlc hacc hrst
    obtain ⟨t, ht, hbusy, -⟩ := hearlier k hpos (by omega)
    exact ⟨t, ht, hbusy⟩
  · rw [if_pos (lengthInvalid_iff.mpr (Nat.lt_of_not_le hdlc))] at hk
    omega

/-- Every accepted operation is busy after each of its edges but the last. -/
theorem runEdges_operation_busy {i : Instr} {s : State} (hacc : Accepts i s) (hrst : NoResetFor (completionEdges i s) s)
    {k : Nat} (hpos : 1 ≤ k) (hk : k < completionEdges i s) : ∃ t, runEdges k s = .next t ∧ t.busy = true := by
  cases i with
  | build => exact runEdges_build_busy hacc hrst hpos hk
  | tickAuto | tickMacc | tickMbrk | tickMcst => exact runEdges_tick_busy hacc rfl hrst hpos hk
  | nop | crcClr | crcBit | rsvd5 | rsvd6 | rsvd7 => exact absurd hk (Nat.not_lt.mpr hpos)

/-- Settles O50. At its last edge the operation is the atomic transition, which leaves no run in progress. -/
theorem cycleCounts : Obligations.CycleCounts := fun i _ hacc hrst =>
  ⟨⟨_, runEdges_operation hacc hrst, atomicOp_busy hacc.not_busy i⟩, fun _ => runEdges_operation_busy hacc hrst⟩

end Sys2Proof.Machine
end
